-- ==== Sys2Proof/Word.lean ====
section
/-! DEFINITION. The word types of the spec's notation (spec/00_scope.md R14). Numbers that the spec treats as
counts, indexes or offsets are `Nat`; unbounded integers are `Int`. -/

namespace Sys2Proof

/-- `UInt8` of R14: one channel value, one frame byte. -/
abbrev Byte := BitVec 8

/-- `UInt32` of R14: one register, one command word. -/
abbrev Word := BitVec 32

/-- `Bits64` of R14: an IEEE 754 binary64 bit pattern (R16). -/
abbrev Bits64 := BitVec 64

end Sys2Proof
end

