-- ==== Sys2Proof/Config.lean ====
section
/-! DEFINITION. The build-time configuration of the block (spec/00_scope.md R6 to R13, spec/20_memory.md R51), and the
values the spec leaves open (opaque: no proof can see them). -/

namespace Sys2Proof

/-- Which scaling function the block is built with (spec/00_scope.md R11, spec/92_eei_decisions.md D12).
What each computes is `Machine.scale8` (Machine/ColorModel.lean). -/
inductive ScaleKind where
  /-- the default, `trunc(fl64_mul(c, b))` (spec/40_color_model.md R106) -/
  | fl64Trunc
  /-- `SCALE_EXACT_FLOOR`: the floor of the exact product (D12) -/
  | exactFloor
  /-- `SCALE_FL64_NEAREST_EVEN`: the binary64 product rounded to the nearest integer, ties to even (D12) -/
  | fl64NearestEven
  /-- any further function that satisfies the laws of R107; `n` names which (log entry 6) -/
  | other (n : Nat)
  deriving DecidableEq, Repr

/-- A configuration `(LED_COUNT, HAS_WHITE, W, P0, P1, RESET_BYTES, SCALE)` (spec/00_scope.md section 3), with the
window's base address `BASE` (spec/20_memory.md R51). Nothing can change it while the block runs. -/
structure Config where
  /-- `LED_COUNT`, written `N` (R6) -/
  ledCount : Nat
  /-- `HAS_WHITE` (R7) -/
  hasWhite : Bool
  /-- `W`, the SPI bits of one protocol bit (R8) -/
  width : Nat
  /-- `P0`, the `W`-bit pattern of a logical 0, read as a number (R9) -/
  p0 : Nat
  /-- `P1`, the `W`-bit pattern of a logical 1, read as a number (R9) -/
  p1 : Nat
  /-- `RESET_BYTES`, written `R` (R10) -/
  resetBytes : Nat
  /-- `SCALE` (R11) -/
  scale : ScaleKind
  /-- `BASE`, where the platform maps the register window (R51) -/
  base : Nat
  deriving DecidableEq, Repr

/-- `C`, the channels per pixel on the wire (spec/00_scope.md R7). -/
def Config.channels (c : Config) : Nat := if c.hasWhite then 4 else 3

/-- The configuration that `Machine.State.reset` carries. `W`, `P0`, `P1` and `SCALE` are the spec's defaults (R8, R9,
R11). DESIGN CHOICE (log entry 1): the spec gives no default for the others; they are those of the one configuration
of the source's end-to-end example (spec/95_test_vectors.md SX7), with `BASE` 0. Unsafe: no statement rests on them. -/
def Config.reference : Config :=
  { ledCount := 3, hasWhite := false, width := 3, p0 := 0b100, p1 := 0b110, resetBytes := 2,
    scale := .fl64Trunc, base := 0 }

/-- FREE VALUE (log entry 6). The function behind `ScaleKind.other n`. The spec says of a configured `SCALE` only that
it satisfies the laws of R107; `Machine.scale8` bounds this one by them. -/
opaque Config.otherScale : Nat → Byte → Bits64 → Byte

/-- FREE VALUE (log entry 7). The bits that reached the wire in the `n`-th Transport transaction, of the given frame,
when the Transport answered `ERR`: spec/20_memory.md R67 says nothing of them. -/
opaque Config.wireAfterError : Nat → List Byte → List Bool

end Sys2Proof
end

