-- ==== Sys2Proof/Syntax.lean ====
section
/-! DEFINITION. The commands of the block: one constructor per row of spec/opcode_table.json
(spec/30_encoding.md R72, R73). -/

namespace Sys2Proof

/-- A command. None has operand fields: operands come from the registers INDEX, COLOR and BRIGHT_IN
(spec/30_encoding.md R70, R71). -/
inductive Instr where
  /-- NOP (spec/42_strip_commands.md R141) -/
  | nop
  /-- SET_PIXEL (R142) -/
  | setPixel
  /-- SET_ALL (R143) -/
  | setAll
  /-- SET_BRIGHTNESS (R144) -/
  | setBrightness
  /-- SHOW (R145) -/
  | showFrame
  /-- GET_PIXEL (R146) -/
  | getPixel
  /-- ILLEGAL (R147), with the command word that decodes to no command, kept so that it can be encoded again -/
  | illegal (word : Word)
  deriving DecidableEq, Repr

end Sys2Proof
end

