-- ==== Sys2Proof/WellFormed.lean ====
section
/-! DEFINITION. Which commands and which configurations are well formed. -/

namespace Sys2Proof

/-- A command is well formed when it is what its own word decodes to: ILLEGAL carries a word that is no other command's
(spec/30_encoding.md R74: `OPC` in 0x06 to 0xFF, or a bit of `RSV` set). -/
def Instr.wellFormed : Instr → Bool
  | .nop => true
  | .setPixel => true
  | .setAll => true
  | .setBrightness => true
  | .showFrame => true
  | .getPixel => true
  | .illegal w => decide (w.extractLsb' 8 24 ≠ 0#24 ∨ 6 ≤ (w.extractLsb' 0 8).toNat)

/-- A well-formed configuration (spec/00_scope.md R12). The fifth condition, that `SCALE` satisfies R107, holds of every
`ScaleKind` (obligation EveryScaleSatisfiesTheLaws), so there is nothing to test here. -/
def Config.wellFormed (c : Config) : Bool :=
  decide (1 ≤ c.ledCount) && decide (c.ledCount ≤ 2 ^ 31 - 1) &&
  decide (2 ≤ c.width) && decide (c.width ≤ 8) &&
  decide (c.p0 < 2 ^ c.width) && decide (c.p1 < 2 ^ c.width) && decide (c.p0 ≠ c.p1) &&
  decide (c.resetBytes ≤ 2 ^ 24)

/-- How many of the bits of a `W`-bit pattern, from bit `n - 1` down, are 1 before the first 0. -/
def leadingOnes (pattern : Nat) : Nat → Nat
  | 0 => 0
  | n + 1 => if pattern.testBit n then leadingOnes pattern n + 1 else 0

/-- What spec/00_scope.md R9 recommends, and does not require, of the patterns: both start with 1 and end with 0, and
`P1` has more leading ones than `P0`. Nothing depends on it. -/
def Config.recommended (c : Config) : Bool :=
  c.p0.testBit (c.width - 1) && c.p1.testBit (c.width - 1) && !c.p0.testBit 0 && !c.p1.testBit 0 &&
  decide (leadingOnes c.p0 c.width < leadingOnes c.p1 c.width)

end Sys2Proof
end

