-- ==== Sys2Proof/Decode.lean ====
section
/-! DEFINITION. Decoding a command word (spec/30_encoding.md R70 to R75), its bytes in the bus's little-endian lanes
(spec/20_memory.md R53), and, after it, the encoder. -/

namespace Sys2Proof

/-- `OPC`, bits [7:0] of a command word (R70). -/
def opcodeField (v : Word) : BitVec 8 := v.extractLsb' 0 8

/-- `RSV`, bits [31:8] of a command word, which must be 0 (R70, R74). -/
def reservedField (v : Word) : BitVec 24 := v.extractLsb' 8 24

/-- `decode_cmd` (spec/30_encoding.md R73): total, every value is exactly one command. -/
def decodeCommand (v : Word) : Instr :=
  if reservedField v ≠ 0#24 then .illegal v
  else match (opcodeField v).toNat with
    | 0x00 => .nop
    | 0x01 => .setPixel
    | 0x02 => .setAll
    | 0x03 => .setBrightness
    | 0x04 => .showFrame
    | 0x05 => .getPixel
    | _ => .illegal v

/-- Why bytes are no command. -/
inductive DecodeRefusal where
  /-- fewer than four bytes: every command is one 32-bit write (R75; log entry 9) -/
  | truncated
  deriving DecidableEq, Repr

/-- The word whose byte lane `k` is byte `k` (spec/20_memory.md R53). -/
def wordOfLanes (b0 b1 b2 b3 : Byte) : Word := b3 ++ b2 ++ b1 ++ b0

/-- The byte lanes of a word, lane 0 first: lane `k` holds bits `[8k+7:8k]` (spec/20_memory.md R53). -/
def lanesOfWord (v : Word) : List Byte :=
  [v.extractLsb' 0 8, v.extractLsb' 8 8, v.extractLsb' 16 8, v.extractLsb' 24 8]

/-- The command in the first four bytes, and the bytes after it. -/
def decodeBytes : List Byte → Except DecodeRefusal (Instr × List Byte)
  | b0 :: b1 :: b2 :: b3 :: rest => .ok (decodeCommand (wordOfLanes b0 b1 b2 b3), rest)
  | _ => .error .truncated

/-- The 32-bit command word of an instruction whose bits are `w`, of which the table gives `nbits`; the bits above them
are 0. -/
def tableWord (nbits w : Nat) : Word := BitVec.ofNat 32 (w % 2 ^ nbits)

/-- What the decoder reads from an opcode-table row's bits, laid out in byte lanes. No command is longer than 32 bits
(R75). -/
def decodeTableWord (nbits w : Nat) : Option Instr :=
  if 32 < nbits then none
  else match decodeBytes (lanesOfWord (tableWord nbits w)) with
    | .ok (i, _) => some i
    | .error _ => none

/-- The command word of a command (spec/30_encoding.md R72). -/
def encode : Instr → Word
  | .nop => 0x00000000#32
  | .setPixel => 0x00000001#32
  | .setAll => 0x00000002#32
  | .setBrightness => 0x00000003#32
  | .showFrame => 0x00000004#32
  | .getPixel => 0x00000005#32
  | .illegal w => w

/-- A command's word in byte lanes, lane 0 first. -/
def encodeBytes (i : Instr) : List Byte := lanesOfWord (encode i)

end Sys2Proof
end

