-- ==== Sys2Proof/Machine/State.lean ====
section
/-! DEFINITION. The state of the machine: the block's tuple (spec/10_state.md R20), its one transient condition (R34),
and the host, the Transport and the configuration around it. Plain data. -/

namespace Sys2Proof.Machine

/-- A color, in constructor order (spec/10_state.md R23, spec/40_color_model.md R100). -/
structure Color where
  red : Byte
  green : Byte
  blue : Byte
  white : Byte
  deriving DecidableEq, Repr

/-- The color of every pixel after reset (spec/10_state.md R36). -/
def Color.black : Color := { red := 0#8, green := 0#8, blue := 0#8, white := 0#8 }

/-- What a host access does: a read, or a write of a word. (The data of a write that is not 32 bits wide is never
looked at: spec/20_memory.md R52.) -/
inductive Direction where
  | read
  | write (data : Word)
  deriving DecidableEq, Repr

/-- One host bus access: a platform address, a width in bytes, and a direction (spec/20_memory.md R52). -/
structure Access where
  addr : Nat
  bytes : Nat
  direction : Direction
  deriving DecidableEq, Repr

/-- What comes to the block from outside between commands: a host access (R60), or the reset input
(spec/70_reset_and_hazards.md R230). -/
inductive Input where
  | access (a : Access)
  | reset
  deriving DecidableEq, Repr

/-- The Transport's answer to one transaction (spec/20_memory.md R65). -/
inductive Answer where
  | ok
  | err
  deriving DecidableEq, Repr

/-- What happens at one waiting step of an in-flight SHOW: nothing yet, the Transport's answer (R65, R67), or a reset
(R231). -/
inductive WaitEvent where
  | pending
  | answer (a : Answer)
  | reset
  deriving DecidableEq, Repr

/-- What the bus answers to one access: a read's data, a write done, or a bus error (spec/20_memory.md R52, R56, R57). -/
inductive Response where
  | data (value : Word)
  | done
  | busError
  deriving DecidableEq, Repr

/-- One Transport transaction: the frame handed over and the answer (spec/20_memory.md R65). -/
structure Transaction where
  frame : List Byte
  answer : Answer
  deriving DecidableEq, Repr

/-- The machine. -/
structure State where
  /-- the configuration: a parameter, which no step changes (R20; log entry 1) -/
  cfg : Config
  /-- `PIX` (R23) -/
  pix : List Color
  /-- `BRIGHT` (R26) -/
  bright : Bits64
  /-- `INDEX` (R27) -/
  index : Word
  /-- `COLOR` (R28) -/
  color : Word
  /-- `BRIGHT_IN` (R29) -/
  brightIn : Bits64
  /-- `RDCOLOR` (R30) -/
  rdcolor : Word
  /-- `STATUS` (R31) -/
  status : Word
  /-- the frame of an in-flight SHOW (R34, R61) -/
  inFlight : Option (List Byte)
  /-- the host's accesses, and resets, still to come, oldest first (R22, R60; log entry 2) -/
  inputs : List Input
  /-- what the coming waiting steps of SHOWs bring, oldest first (R67; log entry 3) -/
  waits : List WaitEvent
  /-- the bus's answers so far, oldest first (log entry 4) -/
  responses : List Response
  /-- the Transport transactions completed so far, oldest first (log entry 4) -/
  sent : List Transaction
  deriving DecidableEq, Repr

/-- Why the machine stops with a fault. -/
inductive Fault where
  /-- Raised by `performAccess` for an access whose address is outside the block's 256-byte window (spec/20_memory.md
  R50, R51): it is no access of this block, and the spec says nothing of it. Safe: nothing is claimed (log entry 5). -/
  | outsideWindow (addr : Nat)
  deriving DecidableEq, Repr

/-- Why the machine refuses. -/
inductive Refusal where
  /-- Raised by an arm of `exec` whose command has no meaning yet. Safe: nothing is claimed. -/
  | notModelled (mnemonic : String)
  /-- Raised by `step` and by every command when the configuration breaks spec/00_scope.md R12: "A model refuses any
  other configuration." Safe: nothing is claimed of such a block. -/
  | illFormedConfig
  /-- Raised by SHOW, and by a waiting step of it, when reset arrives while it is in flight: "the model refuses such a
  run" (spec/70_reset_and_hazards.md R231). Safe: nothing is claimed of what follows. -/
  | resetDuringShow
  deriving DecidableEq, Repr

/-- The machine right after reset, built with configuration `c` (spec/10_state.md R36), with no host access, no Transport
event and no record yet (log entries 2, 3, 4). -/
def State.resetOf (c : Config) : State :=
  { cfg := c
    pix := List.replicate c.ledCount Color.black
    bright := 0x3FF0000000000000#64
    index := 0x00000000#32
    color := 0x00000000#32
    brightIn := 0x0000000000000000#64
    rdcolor := 0x00000000#32
    status := 0x00000000#32
    inFlight := none
    inputs := []
    waits := []
    responses := []
    sent := [] }

/-- The machine right after reset, in the reference configuration (log entry 1). -/
def State.reset : State := State.resetOf Config.reference

end Sys2Proof.Machine
end

