-- ==== Sys2Proof/Machine/Ops.lean ====
section
/-! DEFINITION. The named operations over the state: pixels, the 64-bit registers' halves, records of the outside world,
and reset. Every command and every bus access is written with these. -/

namespace Sys2Proof.Machine

/-- `PIX[p]` (spec/00_scope.md R15). Black where the list is shorter, which no reachable state's is (log entry 10). -/
def State.pixel (s : State) (p : Nat) : Color := s.pix.getD p Color.black

/-- `PIX[p] <- c`, the color stored unscaled (spec/10_state.md R24). -/
def State.setPixel (s : State) (p : Nat) (c : Color) : State := { s with pix := s.pix.set p c }

/-- `for p = 0 to N-1: PIX[p] <- c` (spec/42_strip_commands.md R143). -/
def State.fillPixels (s : State) (c : Color) : State := { s with pix := List.replicate s.cfg.ledCount c }

/-- `BRIGHT <- b` as a whole (spec/20_memory.md R59). -/
def State.setBright (s : State) (b : Bits64) : State := { s with bright := b }

/-- `RDCOLOR <- v` (spec/10_state.md R30). -/
def State.setRdcolor (s : State) (v : Word) : State := { s with rdcolor := v }

/-- Bits [31:0] of a 64-bit register, its word at the lower offset (spec/20_memory.md R54). -/
def lowHalf (b : Bits64) : Word := b.extractLsb' 0 32

/-- Bits [63:32] of a 64-bit register, its word at the next offset (spec/20_memory.md R54). -/
def highHalf (b : Bits64) : Word := b.extractLsb' 32 32

/-- The 64-bit register whose halves are `hi` and `lo`: `(hi << 32) | lo` (spec/30_encoding.md R71). -/
def joinHalves (hi lo : Word) : Bits64 := hi ++ lo

/-- The bus's answer to the access being performed. -/
def State.respond (s : State) (r : Response) : State := { s with responses := s.responses ++ [r] }

/-- The block after reset: every piece of its state at the value of spec/10_state.md R36. The configuration, the host's
and the Transport's coming events and the records are no state of the block and stay; no transaction is issued
(spec/70_reset_and_hazards.md R230). -/
def State.resetBlock (s : State) : State :=
  { State.resetOf s.cfg with inputs := s.inputs, waits := s.waits, responses := s.responses, sent := s.sent }

/-- A next state carried on by `f`; a fault or a refusal stays. -/
def mapNext (f : State → State) : Host.Outcome State Fault Refusal → Host.Outcome State Fault Refusal
  | .next s => .next (f s)
  | .fault r => .fault r
  | .refused r => .refused r

/-- An effect on a block with a well-formed configuration. Any other is refused: "It never gives one a meaning"
(spec/00_scope.md R12). -/
def configured (s : State) (effect : Host.Outcome State Fault Refusal) : Host.Outcome State Fault Refusal :=
  if s.cfg.wellFormed then effect else .refused .illFormedConfig

end Sys2Proof.Machine
end

