-- ==== Sys2Proof/Machine/Operands.lean ====
section
/-! DEFINITION. Operand assembly (spec/30_encoding.md R71): a command's operands are the operand registers as they stand
at the CMD write. Field layouts: spec/10_state.md R27 to R29. -/

namespace Sys2Proof.Machine

/-- `unpack_color` (spec/30_encoding.md R71, spec/10_state.md R28). -/
def unpackColor (v : Word) : Color :=
  { red := v.extractLsb' 0 8, green := v.extractLsb' 8 8, blue := v.extractLsb' 16 8, white := v.extractLsb' 24 8 }

/-- `(white << 24) | (blue << 16) | (green << 8) | red`, the layout of RDCOLOR (spec/42_strip_commands.md R146). -/
def packColor (c : Color) : Word := c.white ++ c.blue ++ c.green ++ c.red

/-- `idx = sint32(INDEX)` (spec/00_scope.md R14, spec/10_state.md R27). -/
def State.indexOperand (s : State) : Int := s.index.toInt

/-- `color = unpack_color(COLOR)`. -/
def State.colorOperand (s : State) : Color := unpackColor s.color

/-- `b = BRIGHT_IN`, both halves as they stand (spec/70_reset_and_hazards.md R234). -/
def State.brightOperand (s : State) : Bits64 := s.brightIn

/-- The pixel that INDEX names, if `0 <= idx < N`; an index outside is never clamped or wrapped
(spec/42_strip_commands.md R142, R146; spec/60_exceptions.md R203). -/
def State.pixelOperand (s : State) : Option Nat :=
  if 0 ≤ s.indexOperand ∧ s.indexOperand < (s.cfg.ledCount : Int) then some s.indexOperand.toNat else none

end Sys2Proof.Machine
end

