-- ==== Sys2Proof/Machine/Flags.lean ====
section
/-! DEFINITION. The block's only flag, STATUS.RESULT (spec/10_state.md R31, R35), its codes (spec/60_exceptions.md R200)
and the one way a command reports its outcome (R201). There is no trap to take: R211. -/

namespace Sys2Proof.Machine

/-- The result codes a command can write (spec/60_exceptions.md R200; 5 to 15 are never written). -/
inductive ResultCode where
  | ok
  | indexOutOfRange
  | invalidBrightness
  | transportError
  | illegalCommand
  deriving DecidableEq, Repr

/-- The number of a result code (spec/60_exceptions.md R200). -/
def ResultCode.code : ResultCode → BitVec 4
  | .ok => 0#4
  | .indexOutOfRange => 1#4
  | .invalidBrightness => 2#4
  | .transportError => 3#4
  | .illegalCommand => 4#4

/-- `STATUS.RESULT`, the field `STATUS[3:0]` (spec/10_state.md R31). -/
def State.result (s : State) : BitVec 4 := s.status.extractLsb' 0 4

/-- `STATUS.RESULT <- code` (spec/60_exceptions.md R201): the field alone; the word's other bits are not written. -/
def State.setResult (s : State) (r : ResultCode) : State :=
  { s with status := s.status.extractLsb' 4 28 ++ r.code }

/-- What a read of STATUS returns: RESULT, with `STATUS[31:4]` reading as 0 (spec/10_state.md R31). -/
def State.statusWord (s : State) : Word := s.result.setWidth 32

end Sys2Proof.Machine
end

