-- ==== Sys2Proof/Machine/BitEncoder.lean ====
section
/-! DEFINITION. The Bit Encoder: a protocol bit to its pattern, a channel value to `W` bytes, and the inverse
(spec/41_bit_encoder.md R120 to R126). Pure functions of the configuration. -/

namespace Sys2Proof.Machine

/-- `encode_bit` (R120): the pattern `P1` or `P0`. -/
def encodeBit (cfg : Config) (bit : Bool) : Nat := if bit then cfg.p1 else cfg.p0

/-- The `8 * W`-bit stream `E` of R121: `v[i]`'s pattern takes bits `[W*i + W - 1 : W*i]`. -/
def pulseStream (cfg : Config) (v : Byte) : Nat :=
  (List.range 8).foldl (fun e i => e ||| (encodeBit cfg (v.getLsbD i) <<< (cfg.width * i))) 0

/-- `encode_byte` (R121): the stream cut into `W` bytes, `E[8W-1-8j : 8W-8-8j]` for `j = 0` to `W-1`, so that its first
bit is bit 7 of the first byte (R122). -/
def encodeByte (cfg : Config) (v : Byte) : List Byte :=
  (List.range cfg.width).map fun j => BitVec.ofNat 8 (pulseStream cfg v >>> (8 * cfg.width - 8 - 8 * j))

/-- The number whose bytes are `bs`, first byte highest: `sum bs[j] << (8 * (len - 1 - j))` (R124). -/
def streamOfBytes (bs : List Byte) : Nat := bs.foldl (fun e b => e * 256 + b.toNat) 0

/-- One turn of `decode_byte`'s loop (R124): the group of bit `i` read as `P1`, as `P0`, or as neither. -/
def decodeGroup (cfg : Config) (e : Nat) (v i : Nat) : Option Nat :=
  let g := (e >>> (cfg.width * i)) % 2 ^ cfg.width
  if g = cfg.p1 then some (2 * v + 1) else if g = cfg.p0 then some (2 * v) else none

/-- `decode_byte` (R124): `none` for a wrong length or a group that is no pattern. -/
def decodeByte (cfg : Config) (bs : List Byte) : Option Byte :=
  if bs.length ≠ cfg.width then none
  else ([7, 6, 5, 4, 3, 2, 1, 0].foldlM (decodeGroup cfg (streamOfBytes bs)) 0).map (BitVec.ofNat 8)

/-- `encode_channels` (R126). -/
def encodeChannels (cfg : Config) (cs : List Byte) : List Byte := (cs.map (encodeByte cfg)).flatten

end Sys2Proof.Machine
end

