-- ==== Sys2Proof/Machine/ColorModel.lean ====
section
/-! DEFINITION. The Color Model: construction and clamping, brightness validity, scaling, wire order
(spec/40_color_model.md R100 to R111), with the binary64 operations they need (spec/00_scope.md R16). All total and pure
(R100). -/

namespace Sys2Proof.Machine

/-- `clamp8` (R101). -/
def clamp8 (x : Int) : Byte := if x < 0 then 0#8 else if 255 < x then 255#8 else BitVec.ofInt 8 x

/-- `mk_color3` (R102): white defaults to 0. -/
def mkColor3 (r g b : Int) : Color := { red := clamp8 r, green := clamp8 g, blue := clamp8 b, white := 0#8 }

/-- `mk_color4` (R102). -/
def mkColor4 (r g b w : Int) : Color := { red := clamp8 r, green := clamp8 g, blue := clamp8 b, white := clamp8 w }

/-- The exponent field `b[62:52]` of a binary64 pattern (spec/00_scope.md R16). -/
def fl64Exponent (b : Bits64) : Nat := (b.extractLsb' 52 11).toNat

/-- The fraction field `b[51:0]` of a binary64 pattern (R16). -/
def fl64Fraction (b : Bits64) : Nat := (b.extractLsb' 0 52).toNat

/-- `is_nan` (R16): all exponent bits set and a nonzero fraction (spec/40_color_model.md R105). -/
def fl64IsNan (b : Bits64) : Bool := decide (fl64Exponent b = 2047) && decide (fl64Fraction b ≠ 0)

/-- A number that orders patterns as the values they stand for: the magnitude bits `b[62:0]`, negated under the sign
bit, so that -0.0 and +0.0 are one. -/
def fl64Key (b : Bits64) : Int :=
  if b.getLsbD 63 then -((b.extractLsb' 0 63).toNat : Int) else ((b.extractLsb' 0 63).toNat : Int)

/-- `a <=_f b` (R16): the IEEE 754 comparison, false when either side is NaN. -/
def fl64Le (a b : Bits64) : Bool := !fl64IsNan a && !fl64IsNan b && decide (fl64Key a ≤ fl64Key b)

/-- `bright_valid` on the raw bits (R105): 0 to 1.0 as an unsigned number, or -0.0. -/
def brightValid (b : Bits64) : Bool :=
  decide (b.toNat ≤ 0x3FF0000000000000) || b == 0x8000000000000000#64

/-- `bright_valid` by IEEE comparisons, the first form of R105. Obligation BrightValidFormsAgree: the same predicate. -/
def brightValidIeee (b : Bits64) : Bool :=
  !fl64IsNan b && fl64Le 0x0000000000000000#64 b && fl64Le b 0x3FF0000000000000#64

/-- `(M, E)` with `b = M * 2^E`, for a pattern of a finite value without its sign (R106). -/
def fl64Significand (b : Bits64) : Nat × Int :=
  if fl64Exponent b = 0 then (fl64Fraction b, -1074)
  else (fl64Fraction b + 2 ^ 52, (fl64Exponent b : Int) - 1075)

/-- The exact product `c * b` as `(P, E)` with value `P * 2^E` (R106). -/
def exactProduct (c : Byte) (b : Bits64) : Nat × Int :=
  (c.toNat * (fl64Significand b).1, (fl64Significand b).2)

/-- `bitlength(P)`: the position of the highest set bit, plus 1 (R106). -/
def bitLength (p : Nat) : Nat := if p = 0 then 0 else Nat.log2 p + 1

/-- `P / 2^sh` rounded to the nearest integer, ties to even (the rounding step of R106). -/
def shiftNearestEven (p sh : Nat) : Nat :=
  let q := p >>> sh
  let r := p - (q <<< sh)
  let half := 2 ^ (sh - 1)
  if 0 < sh ∧ (half < r ∨ (r = half ∧ q % 2 = 1)) then q + 1 else q

/-- A value `P * 2^E` rounded to 53 significant bits, ties to even (R106). -/
def round53 (v : Nat × Int) : Nat × Int :=
  if 53 < bitLength v.1 then
    (shiftNearestEven v.1 (bitLength v.1 - 53), v.2 + ((bitLength v.1 - 53 : Nat) : Int))
  else v

/-- `fl64_mul(c, b)` (R16, R106): the binary64 product, as `(P, E)` with value `P * 2^E`. -/
def fl64Mul (c : Byte) (b : Bits64) : Nat × Int := round53 (exactProduct c b)

/-- `trunc` of a value `P * 2^E`, rounding toward zero (R16, R106). -/
def truncValue (v : Nat × Int) : Nat := if 0 ≤ v.2 then v.1 <<< v.2.toNat else v.1 >>> (-v.2).toNat

/-- A value `P * 2^E` rounded to the nearest integer, ties to even (spec/92_eei_decisions.md D12). -/
def nearestEvenValue (v : Nat × Int) : Nat :=
  if 0 ≤ v.2 then v.1 <<< v.2.toNat else shiftNearestEven v.1 (-v.2).toNat

/-- `ScaleKind.other n`: an unknown function, held to the laws L1 to L4 of R107. Every function that satisfies them is
its own bound, so this shuts none out (log entry 6). -/
def lawfulScale (n : Nat) (c : Byte) (b : Bits64) : Byte :=
  if b = 0x3FF0000000000000#64 then c
  else if b = 0x0000000000000000#64 ∨ b = 0x8000000000000000#64 then 0#8
  else if (Config.otherScale n c b).toNat ≤ c.toNat then Config.otherScale n c b else c

/-- `scale8` of the configured `SCALE` (R106 the default; R107; D12 the named alternatives). -/
def scale8 (k : ScaleKind) (c : Byte) (b : Bits64) : Byte :=
  match k with
  | .fl64Trunc => BitVec.ofNat 8 (truncValue (fl64Mul c b))
  | .exactFloor => BitVec.ofNat 8 (truncValue (exactProduct c b))
  | .fl64NearestEven => BitVec.ofNat 8 (nearestEvenValue (fl64Mul c b))
  | .other n => lawfulScale n c b

/-- `scaled` (R108): each channel alone, white like the others (R104). -/
def scaled (k : ScaleKind) (c : Color) (b : Bits64) : Color :=
  { red := scale8 k c.red b, green := scale8 k c.green b, blue := scale8 k c.blue b, white := scale8 k c.white b }

/-- `wire_order_channels` (R109): GRB, and W where the strip has white. -/
def wireOrderChannels (c : Color) (hasWhite : Bool) : List Byte :=
  [c.green, c.red, c.blue] ++ (if hasWhite then [c.white] else [])

/-- `render_pixel_channels` (R111): scale, then reorder. -/
def renderPixelChannels (cfg : Config) (c : Color) (b : Bits64) : List Byte :=
  wireOrderChannels (scaled cfg.scale c b) cfg.hasWhite

end Sys2Proof.Machine
end

