-- ==== Sys2Proof/Machine/FrameBuilder.lean ====
section
/-! DEFINITION. The Frame Builder (spec/43_frame_builder.md R180 to R186). Pure functions, run only inside SHOW. -/

namespace Sys2Proof.Machine

/-- `build_frame` (R180): a leading reset run, the pixel bytes, a trailing reset run of the same length; every reset byte
is 0x00 (R181). -/
def buildFrame (encoded : List (List Byte)) (r : Nat) : List Byte :=
  List.replicate r 0x00#8 ++ encoded.flatten ++ List.replicate r 0x00#8

/-- `render` (R182): for each pixel in order, scale, reorder, encode. -/
def render (cfg : Config) (pixelAt : Nat → Color) (b : Bits64) : List (List Byte) :=
  (List.range cfg.ledCount).map fun p => encodeChannels cfg (renderPixelChannels cfg (pixelAt p) b)

/-- The frame a SHOW would hand to the Transport now: `build_frame(render(PIX, BRIGHT), R)`
(spec/42_strip_commands.md R145). -/
def State.frame (s : State) : List Byte := buildFrame (render s.cfg s.pixel s.bright) s.cfg.resetBytes

/-- The informative reference for choosing `RESET_BYTES` (R184): `ceil(T_LATCH * F_SPI / 8)`, the latch time in
microseconds and the SPI clock in Hz. The block does not compute it and nothing uses it. -/
def referenceResetBytes (latchMicroseconds spiHz : Nat) : Nat :=
  (latchMicroseconds * spiHz + (8 * 1000000 - 1)) / (8 * 1000000)

end Sys2Proof.Machine
end

