-- ==== Sys2Proof/Machine/Transport.lean ====
section
/-! DEFINITION. The Transport port: the one transaction of a SHOW, its answer, and the wait for it
(spec/20_memory.md R61, R65 to R67; spec/42_strip_commands.md R145). -/

namespace Sys2Proof.Machine

/-- The result code of an answer (spec/42_strip_commands.md R145, spec/60_exceptions.md R205). -/
def answerCode : Answer → ResultCode
  | .ok => .ok
  | .err => .transportError

/-- The Transport has answered the SHOW in flight: the transaction is over, the frame is dropped
(spec/10_state.md R34), RESULT is written, and nothing else (R145). No retry (R205). -/
def State.completeShow (s : State) (frame : List Byte) (a : Answer) : State :=
  State.setResult { s with inFlight := none, sent := s.sent ++ [{ frame := frame, answer := a }] } (answerCode a)

/-- One waiting step of an in-flight SHOW. With no event to come the Transport never answers: the state stays as it is,
at this step and at every later one, "stuck (not final)" (R67; log entry 3). A reset now is refused
(spec/70_reset_and_hazards.md R231). -/
def awaitAnswer (s : State) : Host.Outcome State Fault Refusal :=
  match s.inFlight, s.waits with
  | none, _ => .next s
  | some _, [] => .next s
  | some _, .pending :: rest => .next { s with waits := rest }
  | some frame, .answer a :: rest => .next (State.completeShow { s with waits := rest } frame a)
  | some _, .reset :: _ => .refused .resetDuringShow

/-- `Transport.write(frame)` (R65): the frame is handed over whole, and its answer awaited. -/
def issueShow (s : State) : Host.Outcome State Fault Refusal := awaitAnswer { s with inFlight := some s.frame }

/-- The SPI bits of bytes, first bit first: each byte most significant bit first (spec/20_memory.md R66). -/
def wireBits (bs : List Byte) : List Bool := bs.flatMap fun b => (List.range 8).map fun i => b.getMsbD i

/-- The bits that reached the wire in the `n`-th transaction: the frame's on `OK`; after `ERR` the spec says nothing of
them, and they are a free value (R67; log entry 7). -/
def wireOf (n : Nat) (t : Transaction) : List Bool :=
  match t.answer with
  | .ok => wireBits t.frame
  | .err => Config.wireAfterError n t.frame

end Sys2Proof.Machine
end

