-- ==== Sys2Proof/Machine/StripCommands.lean ====
section
/-! DEFINITION. The meaning of every command (spec/42_strip_commands.md R140 to R147). Each reads its operands as they
stand, changes only what its rule names and writes RESULT once, at its end (R140). -/

namespace Sys2Proof.Machine

/-- NOP (R141). -/
def execNop (s : State) : Host.Outcome State Fault Refusal := configured s (.next (s.setResult .ok))

/-- SET_PIXEL (R142). -/
def execSetPixel (s : State) : Host.Outcome State Fault Refusal :=
  configured s <| .next <|
    match s.pixelOperand with
    | some p => (s.setPixel p s.colorOperand).setResult .ok
    | none => s.setResult .indexOutOfRange

/-- SET_ALL (R143). -/
def execSetAll (s : State) : Host.Outcome State Fault Refusal :=
  configured s (.next ((s.fillPixels s.colorOperand).setResult .ok))

/-- SET_BRIGHTNESS (R144). -/
def execSetBrightness (s : State) : Host.Outcome State Fault Refusal :=
  configured s <| .next <|
    if brightValid s.brightOperand then (s.setBright s.brightOperand).setResult .ok
    else s.setResult .invalidBrightness

/-- SHOW (R145): one transaction; RESULT is written when the Transport answers. -/
def execShow (s : State) : Host.Outcome State Fault Refusal := configured s (issueShow s)

/-- GET_PIXEL (R146): the stored, unscaled color. -/
def execGetPixel (s : State) : Host.Outcome State Fault Refusal :=
  configured s <| .next <|
    match s.pixelOperand with
    | some p => (s.setRdcolor (packColor (s.pixel p))).setResult .ok
    | none => s.setResult .indexOutOfRange

/-- ILLEGAL (R147): nothing but the result code; the word itself is not kept (spec/60_exceptions.md R201). -/
def execIllegal (s : State) : Host.Outcome State Fault Refusal := configured s (.next (s.setResult .illegalCommand))

end Sys2Proof.Machine
end

