-- ==== Sys2Proof/Machine/Dispatch.lean ====
section
/-! DEFINITION. From a command to its meaning (spec/42_strip_commands.md R140, `execute_command`). -/

namespace Sys2Proof.Machine

def exec (i : Instr) (s : State) : Host.Outcome State Fault Refusal :=
  match i with
  | .nop => Sys2Proof.Machine.execNop s
  | .setPixel => Sys2Proof.Machine.execSetPixel s
  | .setAll => Sys2Proof.Machine.execSetAll s
  | .setBrightness => Sys2Proof.Machine.execSetBrightness s
  | .showFrame => Sys2Proof.Machine.execShow s
  | .getPixel => Sys2Proof.Machine.execGetPixel s
  | .illegal _ => Sys2Proof.Machine.execIllegal s

end Sys2Proof.Machine
end

