-- ==== Sys2Proof/Machine/Bus.lean ====
section
/-! DEFINITION. The host bus: the register map, reads, writes, bus errors (spec/20_memory.md R50 to R60), and how one
access is performed. -/

namespace Sys2Proof.Machine

/-- The registers of the window (spec/20_memory.md R55). -/
inductive Reg where
  | cmd
  | status
  | index
  | color
  | brightInLo
  | brightInHi
  | brightLo
  | brightHi
  | rdcolor
  | ledCountReg
  | format
  | resetBytesReg
  | reserved
  deriving DecidableEq, Repr

/-- The register at an aligned offset (R55). -/
def regAt (offset : Nat) : Reg :=
  match offset with
  | 0x00 => .cmd
  | 0x04 => .status
  | 0x08 => .index
  | 0x0C => .color
  | 0x10 => .brightInLo
  | 0x14 => .brightInHi
  | 0x18 => .brightLo
  | 0x1C => .brightHi
  | 0x20 => .rdcolor
  | 0x24 => .ledCountReg
  | 0x28 => .format
  | 0x2C => .resetBytesReg
  | _ => .reserved

/-- The identification register FORMAT (spec/10_state.md R33):
`(zext_8(P1) << 24) | (zext_8(P0) << 16) | (W << 8) | HAS_WHITE` (R56). -/
def formatWord (c : Config) : Word :=
  (BitVec.ofNat 32 c.p1 <<< 24) ||| (BitVec.ofNat 32 c.p0 <<< 16) ||| (BitVec.ofNat 32 c.width <<< 8) |||
    (if c.hasWhite then 1#32 else 0#32)

/-- `BusRead(o, 4)` (R56): a value, with no other effect. -/
def readReg (s : State) : Reg → Word
  | .cmd => 0#32
  | .status => s.statusWord
  | .index => s.index
  | .color => s.color
  | .brightInLo => lowHalf s.brightIn
  | .brightInHi => highHalf s.brightIn
  | .brightLo => lowHalf s.bright
  | .brightHi => highHalf s.bright
  | .rdcolor => s.rdcolor
  | .ledCountReg => BitVec.ofNat 32 s.cfg.ledCount
  | .format => formatWord s.cfg
  | .resetBytesReg => BitVec.ofNat 32 s.cfg.resetBytes
  | .reserved => 0#32

/-- `BusWrite(o, 4, v)` (R57): CMD starts a command; the operand registers store; the rest ignore it. -/
def writeReg (s : State) (v : Word) : Reg → Host.Outcome State Fault Refusal
  | .cmd => exec (decodeCommand v) s
  | .index => .next { s with index := v }
  | .color => .next { s with color := v }
  | .brightInLo => .next { s with brightIn := joinHalves (highHalf s.brightIn) v }
  | .brightInHi => .next { s with brightIn := joinHalves v (lowHalf s.brightIn) }
  | .status => .next s
  | .brightLo => .next s
  | .brightHi => .next s
  | .rdcolor => .next s
  | .ledCountReg => .next s
  | .format => .next s
  | .resetBytesReg => .next s
  | .reserved => .next s

/-- The offset of an address in the 256-byte window at `BASE` (R50, R51). -/
def windowOffset (c : Config) (addr : Nat) : Option Nat :=
  if c.base ≤ addr ∧ addr < c.base + 256 then some (addr - c.base) else none

/-- A write is answered when it is complete; a CMD write that starts SHOW, not before the Transport has answered (R61). -/
def finishWrite (s : State) : State := if s.inFlight.isSome then s else s.respond .done

/-- One host access. Not 32 bits wide, or not at a multiple of 4: a bus error, and nothing else (R52,
spec/60_exceptions.md R209). -/
def performAccess (a : Access) (s : State) : Host.Outcome State Fault Refusal :=
  match windowOffset s.cfg a.addr with
  | none => .fault (.outsideWindow a.addr)
  | some o =>
    if a.bytes ≠ 4 ∨ o % 4 ≠ 0 then .next (s.respond .busError)
    else match a.direction with
      | .read => .next (s.respond (.data (readReg s (regAt o))))
      | .write v => mapNext finishWrite (writeReg s v (regAt o))

/-- The next thing the machine does. While a SHOW is in flight, a waiting step of it, and no host access (R61, R60).
Otherwise the next input; with none the block is idle (spec/60_exceptions.md R216). -/
def advance (s : State) : Host.Outcome State Fault Refusal :=
  match s.inFlight, s.inputs with
  | some _, _ => mapNext finishWrite (awaitAnswer s)
  | none, [] => .next s
  | none, .access a :: rest => performAccess a { s with inputs := rest }
  | none, .reset :: rest => .next (State.resetBlock { s with inputs := rest })

/-- The write of a command word to CMD, at offset 0x00 of the window (R55, spec/30_encoding.md R70). -/
def commandWrite (c : Config) (v : Word) : Access := { addr := c.base + 0x00, bytes := 4, direction := .write v }

end Sys2Proof.Machine
end

