-- ==== Sys2Proof/Machine/Step.lean ====
section
/-! DEFINITION. One step of the machine, and how the next command is placed where it is fetched. -/

namespace Sys2Proof.Machine

/-- One step: a block with an ill-formed configuration is refused (spec/00_scope.md R12); any other advances by one host
access, one reset or one waiting step (spec/20_memory.md R60, R61). -/
def step (s : State) : Host.Outcome State Fault Refusal := configured s (advance s)

/-- `s` with a write of the command word to CMD as the host's next access (log entry 2). Commands reach the block
through the bus and no other way, and none is performed while a SHOW is in flight, so none is. -/
def State.withFetchWord (s : State) (nbits w : Nat) : State :=
  { s with inputs := .access (commandWrite s.cfg (tableWord nbits w)) :: s.inputs, inFlight := none }

end Sys2Proof.Machine
end

