-- ==== Sys2Proof/Machine/Assembler.lean ====
section
/-! DEFINITION. Host programs as data (spec/30_encoding.md R77 to R79): program lines, pseudo-instructions and their
expansions, access triples, and how a list of triples becomes the machine's inputs. Notation only: none of it changes
what the block does (spec/92_eei_decisions.md D31). -/

namespace Sys2Proof.Machine

/-- The offset of a named register (spec/20_memory.md R55). The reserved offsets have no name; 0x30 is the first. -/
def Reg.offset : Reg → Nat
  | .cmd => 0x00
  | .status => 0x04
  | .index => 0x08
  | .color => 0x0C
  | .brightInLo => 0x10
  | .brightInHi => 0x14
  | .brightLo => 0x18
  | .brightHi => 0x1C
  | .rdcolor => 0x20
  | .ledCountReg => 0x24
  | .format => 0x28
  | .resetBytesReg => 0x2C
  | .reserved => 0x30

/-- A program line (R77), its register already an offset and its immediate already 32 bits. -/
inductive Line where
  /-- `wr <reg>, <imm32>`, with the suffix `!OK` or `!ERR` if there is one -/
  | wr (offset : Nat) (imm : Word) (suffix : Option Answer)
  /-- `rd <reg>` -/
  | rd (offset : Nat)
  /-- `rd <reg> == <imm32>` -/
  | rdEq (offset : Nat) (imm : Word)
  deriving DecidableEq, Repr

/-- The direction of an access triple (R79). -/
inductive TripleDir where
  | w
  | r
  deriving DecidableEq, Repr

/-- An access triple `(dir, offset, data)` (R79): the written value, or for a read the expected one (absent for a bare
`rd`); a SHOW write also records the Transport's answer. -/
structure Triple where
  dir : TripleDir
  offset : Nat
  data : Option Word
  answer : Option Answer
  deriving DecidableEq, Repr

/-- Whether a write is a SHOW write: the command word of SHOW at CMD. -/
def isShowWrite (offset : Nat) (imm : Word) : Bool := decide (offset = 0x00 ∧ decodeCommand imm = .showFrame)

/-- The triple of a line, where the line's offset is a multiple of 4 in 0x00 to 0xFC (R79). When the suffix of a SHOW
write is omitted the answer is OK; a suffix elsewhere has no meaning and the line is refused (R77, log entry 13). -/
def Line.triple : Line → Option Triple
  | .wr offset imm suffix =>
    if offset % 4 = 0 ∧ offset ≤ 0xFC then
      if isShowWrite offset imm then
        some { dir := .w, offset := offset, data := some imm, answer := some (suffix.getD .ok) }
      else if suffix.isNone then some { dir := .w, offset := offset, data := some imm, answer := none }
      else none
    else none
  | .rd offset =>
    if offset % 4 = 0 ∧ offset ≤ 0xFC then some { dir := .r, offset := offset, data := none, answer := none } else none
  | .rdEq offset imm =>
    if offset % 4 = 0 ∧ offset ≤ 0xFC then some { dir := .r, offset := offset, data := some imm, answer := none }
    else none

/-- The host access of a triple, in a window at `base`. -/
def Triple.access (base : Nat) (t : Triple) : Access :=
  { addr := base + t.offset, bytes := 4,
    direction := match t.dir with | .r => .read | .w => .write (t.data.getD 0#32) }

/-- The machine with a program still to run: its accesses after those already waiting, and the Transport's recorded
answers after the events already to come (R79: "This encoding is the input a model runs"). -/
def State.load (s : State) (program : List Triple) : State :=
  { s with
    inputs := s.inputs ++ program.map (fun t => .access (t.access s.cfg.base))
    waits := s.waits ++ (program.filterMap Triple.answer).map .answer }

/-- `pack(r, g, b, w)`, after `clamp8` of each argument; a missing `w` is 0 (R78). -/
def pack (r g b : Int) (w : Option Int) : Word := clamp8 (w.getD 0) ++ clamp8 b ++ clamp8 g ++ clamp8 r

/-- A brightness argument of `set_brightness` (R78): a binary64 pattern, or a decimal literal
`±digits / 10^places`. -/
inductive BrightLiteral where
  | pattern (bits : Bits64)
  | decimal (negative : Bool) (digits places : Nat)
  deriving DecidableEq, Repr

/-- `n / d` rounded to the nearest integer, ties to even. -/
def quotientNearestEven (n d : Nat) : Nat :=
  if d < 2 * (n % d) ∨ (2 * (n % d) = d ∧ n / d % 2 = 1) then n / d + 1 else n / d

/-- The exponent `e` at which `n / d`, not 0, is rounded: its 53 significant bits are multiples of `2^e`, and no
binary64 value has a smaller unit than `2^(-1074)` (spec/00_scope.md R16). -/
def roundingExponent (n d : Nat) : Int :=
  let l : Int := (Nat.log2 n : Int) - (Nat.log2 d : Int)
  let reached : Bool := if 0 ≤ l then decide (d <<< l.toNat ≤ n) else decide (d ≤ n <<< (-l).toNat)
  max ((if reached then l else l - 1) - 52) (-1074)

/-- The binary64 value nearest `n / d`, ties to even, and infinity past the largest one; PRESUMED, IEEE 754
(spec/93_implementation_defined.md G3, log entry 14). -/
def nearestBits64 (negative : Bool) (n d : Nat) : Bits64 :=
  let sign : Nat := if negative then 2 ^ 63 else 0
  if n = 0 then BitVec.ofNat 64 sign
  else
    let e := roundingExponent n d
    let q := if 0 ≤ e then quotientNearestEven n (d <<< e.toNat) else quotientNearestEven (n <<< (-e).toNat) d
    BitVec.ofNat 64 (sign + min ((e + 1074).toNat * 2 ^ 52 + q) (2047 * 2 ^ 52))

/-- `bits64(f)` (R78). -/
def BrightLiteral.bits64 : BrightLiteral → Bits64
  | .pattern b => b
  | .decimal negative digits places => nearestBits64 negative digits (10 ^ places)

/-- The pseudo-instructions (R78). -/
inductive Pseudo where
  | nop
  | setPixel (i r g b : Int) (w : Option Int)
  | setAll (r g b : Int) (w : Option Int)
  | setBrightness (f : BrightLiteral)
  | showFrame (suffix : Option Answer)
  | getPixel (i : Int)
  | cmd (v : Word) (suffix : Option Answer)
  deriving DecidableEq, Repr

/-- The expansions (R78), `i mod 2^32` and the rest. -/
def Pseudo.expand : Pseudo → List Line
  | .nop => [.wr Reg.cmd.offset 0x00000000#32 none]
  | .setPixel i r g b w =>
    [.wr Reg.index.offset (BitVec.ofInt 32 i) none, .wr Reg.color.offset (pack r g b w) none,
     .wr Reg.cmd.offset 0x00000001#32 none]
  | .setAll r g b w => [.wr Reg.color.offset (pack r g b w) none, .wr Reg.cmd.offset 0x00000002#32 none]
  | .setBrightness f =>
    [.wr Reg.brightInLo.offset (lowHalf f.bits64) none, .wr Reg.brightInHi.offset (highHalf f.bits64) none,
     .wr Reg.cmd.offset 0x00000003#32 none]
  | .showFrame suffix => [.wr Reg.cmd.offset 0x00000004#32 suffix]
  | .getPixel i => [.wr Reg.index.offset (BitVec.ofInt 32 i) none, .wr Reg.cmd.offset 0x00000005#32 none]
  | .cmd v suffix => [.wr Reg.cmd.offset v suffix]

end Sys2Proof.Machine
end

