-- ==== Sys2Proof/Machine/AsmText.lean ====
section
/-! DEFINITION. The text of a program line (spec/30_encoding.md R77, R78), read from a list of characters. What R77 does
not say of blanks, commas and letter case, and what R77 and R78 do not say of the form of a literal, is a DESIGN CHOICE
(log entries 13 and 18). -/

namespace Sys2Proof.Machine

/-- Blanks and commas stand between the parts of a line. -/
def isSeparator (c : Char) : Bool := c == ' ' || c == '\t' || c == '\r' || c == ','

/-- The pieces of a line between separators, empty ones among them. -/
def pieces : List Char → List (List Char)
  | [] => [[]]
  | c :: cs =>
    if isSeparator c then [] :: pieces cs
    else match pieces cs with
      | [] => [[c]]
      | t :: ts => (c :: t) :: ts

/-- The parts of a line; `;` starts a comment (R77). -/
def lineParts (line : List Char) : List (List Char) :=
  (pieces (line.takeWhile (fun c => c != ';'))).filter (fun t => !t.isEmpty)

/-- The value of a digit in base 10 or 16. -/
def digitValue (radix : Nat) (c : Char) : Option Nat :=
  let n := c.toNat
  let v := if 48 ≤ n ∧ n ≤ 57 then n - 48 else if 65 ≤ n ∧ n ≤ 70 then n - 55
    else if 97 ≤ n ∧ n ≤ 102 then n - 87 else radix
  if v < radix then some v else none

/-- A nonempty string of digits. -/
def digitsValue (radix : Nat) : List Char → Option Nat
  | [] => none
  | c :: cs => (c :: cs).foldlM (fun v d => (digitValue radix d).map (fun x => radix * v + x)) 0

/-- An integer literal: hex `0x...`, decimal, or negative decimal (R77). R77 does not say which characters form one:
any number of digits, leading zeros among them, no leading `+` and no minus sign before `0x` are a DESIGN CHOICE (log
entry 18). -/
def intLiteral : List Char → Option Int
  | '0' :: 'x' :: ds => (digitsValue 16 ds).map Int.ofNat
  | '-' :: ds => (digitsValue 10 ds).map (fun n => -(n : Int))
  | ds => (digitsValue 10 ds).map Int.ofNat

/-- `<imm32>` (R77): a literal that 32 bits hold; a negative one stands for its two's complement. -/
def immLiteral (t : List Char) : Option Word :=
  (intLiteral t).bind fun x => if -(2 ^ 31) ≤ x ∧ x < 2 ^ 32 then some (BitVec.ofInt 32 x) else none

/-- The names of the registers (spec/20_memory.md R55). -/
def regNames : List (List Char × Reg) :=
  [("CMD".toList, .cmd), ("STATUS".toList, .status), ("INDEX".toList, .index), ("COLOR".toList, .color),
   ("BRIGHT_IN_LO".toList, .brightInLo), ("BRIGHT_IN_HI".toList, .brightInHi), ("BRIGHT_LO".toList, .brightLo),
   ("BRIGHT_HI".toList, .brightHi), ("RDCOLOR".toList, .rdcolor), ("LED_COUNT_REG".toList, .ledCountReg),
   ("FORMAT".toList, .format), ("RESET_BYTES_REG".toList, .resetBytesReg)]

/-- `<reg>`: a register name, or a hex offset (R77). -/
def regLiteral (t : List Char) : Option Nat :=
  match regNames.find? (fun r => decide (r.1 = t)) with
  | some r => some r.2.offset
  | none => match t with
    | '0' :: 'x' :: ds => digitsValue 16 ds
    | _ => none

/-- The suffix of a SHOW write: none, `!OK` or `!ERR` (R77). -/
def suffixLiteral : List (List Char) → Option (Option Answer)
  | [] => some none
  | [t] => if t = "!OK".toList then some (some .ok) else if t = "!ERR".toList then some (some .err) else none
  | _ => none

/-- The digits and the number of places of an unsigned decimal literal. R78 says only 'a decimal literal'. Its grammar
here is a DESIGN CHOICE (log entry 18): digits with at most one point among, before or after them, at least one digit
in all, so `.5` and `5.` are read; an exponent (`1e-3`) and a leading `+` are refused. -/
def decimalLiteral (negative : Bool) (t : List Char) : Option BrightLiteral :=
  let whole := t.takeWhile (fun c => c != '.')
  match t.dropWhile (fun c => c != '.') with
  | [] => (digitsValue 10 whole).map fun n => .decimal negative n 0
  | _ :: places => (digitsValue 10 (whole ++ places)).map fun n => .decimal negative n places.length

/-- `f` of `set_brightness` (R78): `0x` and 16 hex digits, or a decimal literal. That a decimal literal may begin with a
minus sign, which R78 does not say, is a DESIGN CHOICE (log entry 18). -/
def brightLiteral : List Char → Option BrightLiteral
  | '0' :: 'x' :: ds =>
    if ds.length = 16 then (digitsValue 16 ds).map fun n => .pattern (BitVec.ofNat 64 n) else none
  | '-' :: t => decimalLiteral true t
  | t => decimalLiteral false t

/-- Three or four channel arguments (R78), each an integer literal: R78 does not say how an argument is written, a
DESIGN CHOICE (log entry 18). -/
def channelArguments : List (List Char) → Option (Int × Int × Int × Option Int)
  | [r, g, b] => do return (← intLiteral r, ← intLiteral g, ← intLiteral b, none)
  | [r, g, b, w] => do return (← intLiteral r, ← intLiteral g, ← intLiteral b, some (← intLiteral w))
  | _ => none

/-- A pseudo-instruction (R78) by its name and its arguments. -/
def pseudoLiteral (name : List Char) (arguments : List (List Char)) : Option Pseudo :=
  if name = "nop".toList then if arguments = [] then some .nop else none
  else if name = "show".toList then (suffixLiteral arguments).map .showFrame
  else if name = "set_all".toList then
    (channelArguments arguments).map fun (r, g, b, w) => .setAll r g b w
  else match arguments with
    | [] => none
    | a :: rest =>
      if name = "set_pixel".toList then do
        let i ← intLiteral a
        let (r, g, b, w) ← channelArguments rest
        return .setPixel i r g b w
      else if name = "cmd".toList then do return .cmd (← immLiteral a) (← suffixLiteral rest)
      else if rest ≠ [] then none
      else if name = "set_brightness".toList then (brightLiteral a).map .setBrightness
      else if name = "get_pixel".toList then (intLiteral a).map .getPixel
      else none

/-- The program lines a text line stands for: none for a blank line or a comment, several for a pseudo-instruction
(R77, R78). -/
def parseLine (line : List Char) : Option (List Line) :=
  match lineParts line with
  | [] => some []
  | name :: rest =>
    if name = "wr".toList then
      match rest with
      | r :: v :: more => do return [.wr (← regLiteral r) (← immLiteral v) (← suffixLiteral more)]
      | _ => none
    else if name = "rd".toList then
      match rest with
      | [r] => (regLiteral r).map fun o => [.rd o]
      | [r, eq, v] => if eq = "==".toList then do return [.rdEq (← regLiteral r) (← immLiteral v)] else none
      | _ => none
    else (pseudoLiteral name rest).map Pseudo.expand

/-- A program's access triples (R79), from its text lines; none if a line is no line of R77 or R78. -/
def assemble (lines : List (List Char)) : Option (List Triple) := do
  let parsed ← lines.mapM parseLine
  parsed.flatten.mapM Line.triple

end Sys2Proof.Machine
end

