-- ==== Sys2Proof/Safety.lean ====
section
/-! DEFINITION. The predicates the statements are written with: the invariants of spec/10_state.md R37, the laws of
SCALE (spec/40_color_model.md R107), and names for the parts of a step. -/

namespace Sys2Proof.Machine

/-- The invariants of spec/10_state.md R37, in a well-formed configuration (spec/00_scope.md R12). -/
structure Inv (s : State) : Prop where
  /-- R12 -/
  config : s.cfg.wellFormed = true
  /-- `len(PIX) = N` -/
  pixels : s.pix.length = s.cfg.ledCount
  /-- `bright_valid(BRIGHT)` (R26) -/
  bright : brightValid s.bright = true
  /-- `STATUS.RESULT` is in 0 to 4 -/
  result : s.result.toNat ≤ 4
  /-- `STATUS[31:4] = 0` -/
  reserved : s.status.extractLsb' 4 28 = 0#28

/-- A frame in flight is the frame of the state as it stands: nothing it was computed from has changed since
(spec/42_strip_commands.md R145, spec/20_memory.md R61). -/
def FrameInFlightIsCurrent (s : State) : Prop := ∀ f, s.inFlight = some f → f = s.frame

/-- The laws L1 to L4 of SCALE (spec/40_color_model.md R107). L5, that it is a function of `(c, b)` alone, is in its
type. -/
structure ScaleLaws (f : Byte → Bits64 → Byte) : Prop where
  /-- L1 -/
  full : ∀ c, f c 0x3FF0000000000000#64 = c
  /-- L2, +0.0 -/
  zero : ∀ c, f c 0x0000000000000000#64 = 0#8
  /-- L2, -0.0 -/
  negZero : ∀ c, f c 0x8000000000000000#64 = 0#8
  /-- L3 -/
  bounded : ∀ c b, brightValid b = true → (f c b).toNat ≤ c.toNat
  /-- L4 -/
  dark : ∀ b, brightValid b = true → f 0#8 b = 0#8

/-- `STATUS.RESULT <- code` has happened between `s` and `t`, and `STATUS[31:4]` is as it was
(spec/60_exceptions.md R201). -/
def ResultWritten (s t : State) (code : BitVec 4) : Prop :=
  t.result = code ∧ t.status.extractLsb' 4 28 = s.status.extractLsb' 4 28

/-- The result code is written, and every other piece of state is as it was. -/
def WritesOnlyResult (s t : State) (code : BitVec 4) : Prop :=
  ResultWritten s t code ∧ t = { s with status := t.status }

/-- A 32-bit access at offset `o` of the window. -/
def wordAccess (c : Config) (o : Nat) (d : Direction) : Access := { addr := c.base + o, bytes := 4, direction := d }

/-- The next step performs this access. -/
def TakesAccess (s : State) (a : Access) : Prop := s.inFlight = none ∧ ∃ rest, s.inputs = .access a :: rest

/-- The next step performs a write of the command word `v` to CMD. -/
def TakesCommand (s : State) (v : Word) : Prop := TakesAccess s (wordAccess s.cfg 0x00 (.write v))

/-- The next step performs a reset. -/
def TakesReset (s : State) : Prop := s.inFlight = none ∧ ∃ rest, s.inputs = .reset :: rest

/-- The value of a read at an aligned offset, in the words of spec/20_memory.md R56. -/
def readValue (s : State) (o : Nat) : Word :=
  if o = 0x04 then s.status
  else if o = 0x08 then s.index
  else if o = 0x0C then s.color
  else if o = 0x10 then s.brightIn.extractLsb' 0 32
  else if o = 0x14 then s.brightIn.extractLsb' 32 32
  else if o = 0x18 then s.bright.extractLsb' 0 32
  else if o = 0x1C then s.bright.extractLsb' 32 32
  else if o = 0x20 then s.rdcolor
  else if o = 0x24 then BitVec.ofNat 32 s.cfg.ledCount
  else if o = 0x28 then
    BitVec.ofNat 32 (s.cfg.p1 <<< 24 ||| s.cfg.p0 <<< 16 ||| s.cfg.width <<< 8 ||| (if s.cfg.hasWhite then 1 else 0))
  else if o = 0x2C then BitVec.ofNat 32 s.cfg.resetBytes
  else 0#32

/-- The frames handed to the Transport so far, those of the completed transactions and the one in flight
(spec/20_memory.md R65). -/
def issuedFrames (s : State) : List (List Byte) := s.sent.map Transaction.frame ++ s.inFlight.toList

/-- A sequence of SET_BRIGHTNESS commands, each with its own operand. -/
def setBrightnessEach : List Bits64 → State → Host.Outcome State Fault Refusal
  | [], s => .next s
  | b :: bs, s => match exec .setBrightness { s with brightIn := b } with
    | .next t => setBrightnessEach bs t
    | .fault r => .fault r
    | .refused r => .refused r

/-- `W`, `P0` and `P1` at the spec's defaults (spec/00_scope.md R8, R9). -/
def DefaultPatterns (c : Config) : Prop := c.width = 3 ∧ c.p0 = 0b100 ∧ c.p1 = 0b110

end Sys2Proof.Machine
end

