-- ==== Sys2Proof/Certificates/Slice0/Obligations.lean ====
section
/-! DEFINITION. The statements for the provers. Each says which rules of spec/ it formalises; all hold for every
configuration, since the configuration is a field of the state. -/

open Sys2Proof Sys2Proof.Machine

/-! ## Encoding -/

/-- spec/30_encoding.md R73: `decode_cmd`, field by field. -/
def Obligations.DecodingFollowsTheOpcodeMap : Prop :=
  ∀ v : Word,
    (v.extractLsb' 8 24 ≠ 0#24 → decodeCommand v = .illegal v) ∧
    (v.extractLsb' 8 24 = 0#24 →
      (v.extractLsb' 0 8 = 0x00#8 → decodeCommand v = .nop) ∧
      (v.extractLsb' 0 8 = 0x01#8 → decodeCommand v = .setPixel) ∧
      (v.extractLsb' 0 8 = 0x02#8 → decodeCommand v = .setAll) ∧
      (v.extractLsb' 0 8 = 0x03#8 → decodeCommand v = .setBrightness) ∧
      (v.extractLsb' 0 8 = 0x04#8 → decodeCommand v = .showFrame) ∧
      (v.extractLsb' 0 8 = 0x05#8 → decodeCommand v = .getPixel) ∧
      (6 ≤ (v.extractLsb' 0 8).toNat → decodeCommand v = .illegal v))

/-- spec/30_encoding.md R72: a value selects a command exactly when it equals the command's value. -/
def Obligations.CommandsAreSelectedByTheirWordAlone : Prop :=
  ∀ v : Word,
    (decodeCommand v = .nop ↔ v = 0x00000000#32) ∧
    (decodeCommand v = .setPixel ↔ v = 0x00000001#32) ∧
    (decodeCommand v = .setAll ↔ v = 0x00000002#32) ∧
    (decodeCommand v = .setBrightness ↔ v = 0x00000003#32) ∧
    (decodeCommand v = .showFrame ↔ v = 0x00000004#32) ∧
    (decodeCommand v = .getPixel ↔ v = 0x00000005#32)

/-- Words written out from spec/30_encoding.md R72 and R74, in the byte lanes of spec/20_memory.md R53. -/
def Obligations.ChosenWordsDecode : Prop :=
  decodeBytes [0x01#8, 0x00#8, 0x00#8, 0x00#8] = .ok (.setPixel, []) ∧
  decodeBytes [0x04#8, 0x00#8, 0x00#8, 0x00#8] = .ok (.showFrame, []) ∧
  decodeBytes [0x04#8, 0x01#8, 0x00#8, 0x00#8] = .ok (.illegal 0x00000104#32, []) ∧
  decodeBytes [0x00#8, 0x00#8, 0x00#8, 0x80#8] = .ok (.illegal 0x80000000#32, [])

/-- Decode and encode agree, through the byte lanes, for every well-formed command; and every word is the word of the
command it decodes to, which is well formed. -/
def Obligations.EncodeAndDecodeAgree : Prop :=
  (∀ (i : Instr) (rest : List Byte), i.wellFormed = true → decodeBytes (encodeBytes i ++ rest) = .ok (i, rest)) ∧
  (∀ v : Word, (decodeCommand v).wellFormed = true ∧ encode (decodeCommand v) = v)

/-! ## A step runs the decoded command -/

/-- A CMD write runs the command it decodes to, in the state as it stands, the access taken from the host's list; the
write is answered when the command is complete, which an unanswered SHOW is not. No command faults. -/
def Obligations.StepRunsTheDecodedCommand : Prop :=
  ∀ (s : State) (rest : List Input) (v : Word),
    s.cfg.wellFormed = true → s.inFlight = none →
    s.inputs = .access (wordAccess s.cfg 0x00 (.write v)) :: rest →
    (∀ t, exec (decodeCommand v) { s with inputs := rest } = .next t → t.inFlight = none →
      step s = .next { t with responses := t.responses ++ [.done] }) ∧
    (∀ t, exec (decodeCommand v) { s with inputs := rest } = .next t → t.inFlight ≠ none → step s = .next t) ∧
    (∀ r, exec (decodeCommand v) { s with inputs := rest } = .refused r → step s = .refused r) ∧
    (∀ r, exec (decodeCommand v) { s with inputs := rest } ≠ .fault r)

/-! ## The commands -/

/-- spec/42_strip_commands.md R141. -/
def Obligations.NopWritesOkAndNothingElse : Prop :=
  decodeCommand 0x00000000#32 = .nop ∧
  ∀ s : State, s.cfg.wellFormed = true → ∃ t, exec .nop s = .next t ∧ WritesOnlyResult s t 0#4

/-- spec/42_strip_commands.md R142. -/
def Obligations.SetPixelStoresOrReportsRange : Prop :=
  decodeCommand 0x00000001#32 = .setPixel ∧
  ∀ s : State, s.cfg.wellFormed = true → s.pix.length = s.cfg.ledCount →
    (∀ p : Nat, s.index.toInt = (p : Int) → p < s.cfg.ledCount →
      ∃ t, exec .setPixel s = .next t ∧ ResultWritten s t 0#4 ∧
        (t.pixel p).red = s.color.extractLsb' 0 8 ∧ (t.pixel p).green = s.color.extractLsb' 8 8 ∧
        (t.pixel p).blue = s.color.extractLsb' 16 8 ∧ (t.pixel p).white = s.color.extractLsb' 24 8 ∧
        (∀ q, q ≠ p → t.pixel q = s.pixel q) ∧ t.pix.length = s.pix.length ∧
        t = { s with pix := t.pix, status := t.status }) ∧
    (s.index.toInt < 0 ∨ (s.cfg.ledCount : Int) ≤ s.index.toInt →
      ∃ t, exec .setPixel s = .next t ∧ WritesOnlyResult s t 1#4)

/-- spec/42_strip_commands.md R143. -/
def Obligations.SetAllFillsEveryPixel : Prop :=
  decodeCommand 0x00000002#32 = .setAll ∧
  ∀ s : State, s.cfg.wellFormed = true →
    ∃ t, exec .setAll s = .next t ∧ ResultWritten s t 0#4 ∧ t.pix.length = s.cfg.ledCount ∧
      (∀ p, p < s.cfg.ledCount →
        (t.pixel p).red = s.color.extractLsb' 0 8 ∧ (t.pixel p).green = s.color.extractLsb' 8 8 ∧
        (t.pixel p).blue = s.color.extractLsb' 16 8 ∧ (t.pixel p).white = s.color.extractLsb' 24 8) ∧
      t = { s with pix := t.pix, status := t.status }

/-- spec/42_strip_commands.md R144. -/
def Obligations.SetBrightnessStoresOrRejects : Prop :=
  decodeCommand 0x00000003#32 = .setBrightness ∧
  ∀ s : State, s.cfg.wellFormed = true →
    (brightValid s.brightIn = true →
      ∃ t, exec .setBrightness s = .next t ∧ ResultWritten s t 0#4 ∧ t.bright = s.brightIn ∧
        t = { s with bright := t.bright, status := t.status }) ∧
    (brightValid s.brightIn = false → ∃ t, exec .setBrightness s = .next t ∧ WritesOnlyResult s t 2#4)

/-- spec/42_strip_commands.md R145: one transaction of the frame; RESULT by the answer; and while there is no answer, the
frame is in flight and RESULT not yet written. -/
def Obligations.ShowMakesOneTransaction : Prop :=
  decodeCommand 0x00000004#32 = .showFrame ∧
  ∀ (s : State) (frame : List Byte), s.cfg.wellFormed = true → s.inFlight = none →
    frame = buildFrame (render s.cfg s.pixel s.bright) s.cfg.resetBytes →
    (∀ rest, s.waits = .answer .ok :: rest →
      ∃ t, exec .showFrame s = .next t ∧ ResultWritten s t 0#4 ∧ t.sent = s.sent ++ [⟨frame, .ok⟩] ∧
        t = { s with status := t.status, waits := rest, sent := t.sent }) ∧
    (∀ rest, s.waits = .answer .err :: rest →
      ∃ t, exec .showFrame s = .next t ∧ ResultWritten s t 3#4 ∧ t.sent = s.sent ++ [⟨frame, .err⟩] ∧
        t = { s with status := t.status, waits := rest, sent := t.sent }) ∧
    (∀ rest, s.waits = .pending :: rest →
      exec .showFrame s = .next { s with inFlight := some frame, waits := rest }) ∧
    (s.waits = [] → exec .showFrame s = .next { s with inFlight := some frame })

/-- spec/42_strip_commands.md R146. -/
def Obligations.GetPixelReadsTheStoredColor : Prop :=
  decodeCommand 0x00000005#32 = .getPixel ∧
  ∀ s : State, s.cfg.wellFormed = true →
    (∀ p : Nat, s.index.toInt = (p : Int) → p < s.cfg.ledCount →
      ∃ t, exec .getPixel s = .next t ∧ ResultWritten s t 0#4 ∧
        t.rdcolor.extractLsb' 0 8 = (s.pixel p).red ∧ t.rdcolor.extractLsb' 8 8 = (s.pixel p).green ∧
        t.rdcolor.extractLsb' 16 8 = (s.pixel p).blue ∧ t.rdcolor.extractLsb' 24 8 = (s.pixel p).white ∧
        t = { s with rdcolor := t.rdcolor, status := t.status }) ∧
    (s.index.toInt < 0 ∨ (s.cfg.ledCount : Int) ≤ s.index.toInt →
      ∃ t, exec .getPixel s = .next t ∧ WritesOnlyResult s t 1#4)

/-- spec/42_strip_commands.md R147, spec/60_exceptions.md R206: every word that decodes to no command, whatever it is. -/
def Obligations.IllegalWritesItsCodeAndNothingElse : Prop :=
  ∀ w : Word,
    (decodeCommand w = .illegal w ↔ w.extractLsb' 8 24 ≠ 0#24 ∨ 6 ≤ (w.extractLsb' 0 8).toNat) ∧
    ∀ s : State, s.cfg.wellFormed = true → ∃ t, exec (.illegal w) s = .next t ∧ WritesOnlyResult s t 4#4

/-- spec/60_exceptions.md R203. -/
def Obligations.RangeErrorExactlyOutsideTheStrip : Prop :=
  ∀ (s : State) (i : Instr), s.cfg.wellFormed = true → i = .setPixel ∨ i = .getPixel →
    ∃ t, exec i s = .next t ∧
      (t.result = 1#4 ↔ s.index.toInt < 0 ∨ (s.cfg.ledCount : Int) ≤ s.index.toInt)

/-- The result codes each command can leave (spec/60_exceptions.md R200), once it is complete. -/
def Obligations.EachCommandHasItsOwnResultCodes : Prop :=
  ∀ (i : Instr) (s t : State), exec i s = .next t → t.inFlight = none →
    match i with
    | .nop => t.result = 0#4
    | .setPixel => t.result = 0#4 ∨ t.result = 1#4
    | .setAll => t.result = 0#4
    | .setBrightness => t.result = 0#4 ∨ t.result = 2#4
    | .showFrame => t.result = 0#4 ∨ t.result = 3#4
    | .getPixel => t.result = 0#4 ∨ t.result = 1#4
    | .illegal _ => t.result = 4#4

/-- spec/60_exceptions.md R202: errors are precise. Of STATUS, RESULT alone may change. -/
def Obligations.ErrorsArePrecise : Prop :=
  ∀ (i : Instr) (s t : State), exec i s = .next t → s.inFlight = none → t.inFlight = none → t.result ≠ 0#4 →
    (t.result ≠ 3#4 →
      t.status.extractLsb' 4 28 = s.status.extractLsb' 4 28 ∧ t = { s with status := t.status }) ∧
    (t.result = 3#4 → i = .showFrame ∧ s.waits = .answer .err :: t.waits ∧
      t.sent = s.sent ++ [⟨buildFrame (render s.cfg s.pixel s.bright) s.cfg.resetBytes, .err⟩] ∧
      t.status.extractLsb' 4 28 = s.status.extractLsb' 4 28 ∧
      t = { s with status := t.status, waits := t.waits, sent := t.sent })

/-- spec/10_state.md R35: no command reads STATUS. Whatever it held, a command changes everything else alike. -/
def Obligations.NoCommandReadsStatus : Prop :=
  ∀ (i : Instr) (s t : State) (x : Word), exec i s = .next t →
    ∃ u, exec i { s with status := x } = .next u ∧ t = { u with status := t.status } ∧
      (s.inFlight = none → t.inFlight = none → u.result = t.result)

/-- spec/30_encoding.md R71: SET_ALL ignores INDEX, and SHOW and NOP ignore all three operand registers. -/
def Obligations.UnusedOperandsAreIgnored : Prop :=
  ∀ (s t : State) (x y : Word) (b : Bits64),
    (exec .setAll s = .next t → exec .setAll { s with index := x } = .next { t with index := x }) ∧
    (exec .nop s = .next t →
      exec .nop { s with index := x, color := y, brightIn := b } = .next { t with index := x, color := y, brightIn := b }) ∧
    (exec .showFrame s = .next t →
      exec .showFrame { s with index := x, color := y, brightIn := b } =
        .next { t with index := x, color := y, brightIn := b })

/-- A SET_PIXEL and then a GET_PIXEL at the same index read COLOR back, all four fields (spec/10_state.md R24, R25, R28,
R30). -/
def Obligations.GetPixelAfterSetPixelReadsColor : Prop :=
  ∀ s : State, s.cfg.wellFormed = true → s.pix.length = s.cfg.ledCount →
    0 ≤ s.index.toInt → s.index.toInt < (s.cfg.ledCount : Int) →
    ∃ t u, exec .setPixel s = .next t ∧ exec .getPixel t = .next u ∧ u.rdcolor = s.color ∧ u.result = 0#4

/-- spec/42_strip_commands.md R149: any sequence of SET_BRIGHTNESS commands leaves PIX, and setting the earlier
brightness back gives the earlier frame. -/
def Obligations.BrightnessIsReversible : Prop :=
  ∀ (bs : List Bits64) (s : State), s.cfg.wellFormed = true → brightValid s.bright = true →
    ∃ t u, setBrightnessEach bs s = .next t ∧ t.pix = s.pix ∧
      exec .setBrightness { t with brightIn := s.bright } = .next u ∧ u.bright = s.bright ∧ u.frame = s.frame

/-! ## The Transport port -/

/-- spec/20_memory.md R61: while a SHOW is in flight no host access is performed; the write is answered, and RESULT
written, when the Transport answers. -/
def Obligations.InFlightShowStallsTheBus : Prop :=
  ∀ (s : State) (frame : List Byte), s.cfg.wellFormed = true → s.inFlight = some frame →
    (s.waits = [] → step s = .next s) ∧
    (∀ rest, s.waits = .pending :: rest → step s = .next { s with waits := rest }) ∧
    (∀ a rest, s.waits = .answer a :: rest →
      ∃ t, step s = .next t ∧ ResultWritten s t (match a with | .ok => 0#4 | .err => 3#4) ∧
        t = { s with inFlight := none, waits := rest, status := t.status, sent := s.sent ++ [⟨frame, a⟩],
                     responses := s.responses ++ [.done] })

/-- spec/20_memory.md R67: a SHOW the Transport never answers hangs, for every number of steps. -/
def Obligations.UnansweredShowHangs : Prop :=
  ∀ (k : Nat) (s t : State), s.cfg.wellFormed = true → s.waits = [] → exec .showFrame s = .next t →
    t.inFlight = some s.frame ∧ core.run k t = .next t

/-- spec/70_reset_and_hazards.md R231: a reset while a SHOW is in flight is refused. -/
def Obligations.ResetDuringShowIsRefused : Prop :=
  ∀ (s : State) (rest : List WaitEvent), s.cfg.wellFormed = true → s.waits = .reset :: rest →
    exec .showFrame s = .refused .resetDuringShow ∧ (s.inFlight ≠ none → step s = .refused .resetDuringShow)

/-- Each SHOW hands exactly one frame to the Transport, that of the state as it stands, and nothing else hands any
(spec/20_memory.md R58, R65). -/
def Obligations.EachShowHandsOverOneFrame : Prop :=
  ∀ s t : State, step s = .next t →
    (TakesCommand s 0x00000004#32 → issuedFrames t = issuedFrames s ++ [s.frame]) ∧
    (¬ TakesCommand s 0x00000004#32 → issuedFrames t = issuedFrames s)

/-! ## The host bus -/

/-- spec/20_memory.md R56. `STATUS[31:4] = 0` is the invariant of spec/10_state.md R37 (InvariantsAreKeptByEveryStep). -/
def Obligations.ReadsReturnTheRegisterMap : Prop :=
  ∀ (s : State) (o : Nat) (rest : List Input), s.cfg.wellFormed = true → s.inFlight = none →
    s.status.extractLsb' 4 28 = 0#28 → o < 256 → o % 4 = 0 →
    s.inputs = .access (wordAccess s.cfg o .read) :: rest →
    step s = .next { s with inputs := rest, responses := s.responses ++ [.data (readValue s o)] }

/-- spec/20_memory.md R57, at every aligned offset. (CMD's is stated in full, the write of an unanswered SHOW with it, by
StepRunsTheDecodedCommand.) -/
def Obligations.WritesStoreOrAreIgnored : Prop :=
  ∀ (s : State) (o : Nat) (v : Word) (rest : List Input), s.cfg.wellFormed = true → s.inFlight = none →
    o < 256 → o % 4 = 0 → s.inputs = .access (wordAccess s.cfg o (.write v)) :: rest →
    (o = 0x00 → ∀ t, exec (decodeCommand v) { s with inputs := rest } = .next t → t.inFlight = none →
      step s = .next { t with responses := t.responses ++ [.done] }) ∧
    (o = 0x08 → step s = .next { s with inputs := rest, responses := s.responses ++ [.done], index := v }) ∧
    (o = 0x0C → step s = .next { s with inputs := rest, responses := s.responses ++ [.done], color := v }) ∧
    (o = 0x10 → step s = .next { s with inputs := rest, responses := s.responses ++ [.done],
                                        brightIn := s.brightIn.extractLsb' 32 32 ++ v }) ∧
    (o = 0x14 → step s = .next { s with inputs := rest, responses := s.responses ++ [.done],
                                        brightIn := v ++ s.brightIn.extractLsb' 0 32 }) ∧
    (o ≠ 0x00 → o ≠ 0x08 → o ≠ 0x0C → o ≠ 0x10 → o ≠ 0x14 →
      step s = .next { s with inputs := rest, responses := s.responses ++ [.done] })

/-- spec/20_memory.md R52, spec/60_exceptions.md R209: any other width, or an offset that is no multiple of 4. -/
def Obligations.BusErrorsChangeNothing : Prop :=
  ∀ (s : State) (a : Access) (rest : List Input), s.cfg.wellFormed = true → s.inFlight = none →
    s.inputs = .access a :: rest → s.cfg.base ≤ a.addr → a.addr < s.cfg.base + 256 →
    a.bytes ≠ 4 ∨ (a.addr - s.cfg.base) % 4 ≠ 0 →
    step s = .next { s with inputs := rest, responses := s.responses ++ [.busError] }

/-- The model's choice (log entry 5): an address outside the 256-byte window of spec/20_memory.md R50 is no access of the
block, and the run stops. -/
def Obligations.AddressesOutsideTheWindowFault : Prop :=
  ∀ (s : State) (a : Access) (rest : List Input), s.cfg.wellFormed = true → s.inFlight = none →
    s.inputs = .access a :: rest → a.addr < s.cfg.base ∨ s.cfg.base + 256 ≤ a.addr →
    step s = .fault (.outsideWindow a.addr)

/-- spec/20_memory.md R56 and R58: reading the same register twice with no write in between gives the same answer, and
changes nothing else. -/
def Obligations.ReadingTwiceGivesTheSame : Prop :=
  ∀ (s : State) (a : Access) (rest : List Input), s.cfg.wellFormed = true → s.inFlight = none →
    s.inputs = .access a :: .access a :: rest → a.direction = .read →
    s.cfg.base ≤ a.addr → a.addr < s.cfg.base + 256 →
    ∃ r, core.run 2 s = .next { s with inputs := rest, responses := s.responses ++ [r, r] }

/-- spec/20_memory.md R58: writing the same value twice to INDEX, COLOR or a half of BRIGHT_IN leaves the same state as
writing it once, the bus's answers apart. -/
def Obligations.OperandWritesAreIdempotent : Prop :=
  ∀ (s : State) (o : Nat) (v : Word) (rest : List Input), s.cfg.wellFormed = true → s.inFlight = none →
    o = 0x08 ∨ o = 0x0C ∨ o = 0x10 ∨ o = 0x14 →
    s.inputs = .access (wordAccess s.cfg o (.write v)) :: .access (wordAccess s.cfg o (.write v)) :: rest →
    ∃ t u, core.run 1 s = .next t ∧ core.run 2 s = .next u ∧
      u = { t with inputs := rest, responses := s.responses ++ [.done, .done] }

/-- spec/10_state.md R29, spec/20_memory.md R54: both halves written, in either order, give the whole BRIGHT_IN; BRIGHT
stays. A half that is not rewritten keeps its old value (spec/70_reset_and_hazards.md R234): WritesStoreOrAreIgnored. -/
def Obligations.BrightInHalvesInEitherOrder : Prop :=
  ∀ (s : State) (lo hi : Word) (rest : List Input), s.cfg.wellFormed = true → s.inFlight = none →
    s.inputs = .access (wordAccess s.cfg 0x10 (.write lo)) :: .access (wordAccess s.cfg 0x14 (.write hi)) :: rest ∨
    s.inputs = .access (wordAccess s.cfg 0x14 (.write hi)) :: .access (wordAccess s.cfg 0x10 (.write lo)) :: rest →
    ∃ t, core.run 2 s = .next t ∧ t.brightIn.toNat = hi.toNat * 2 ^ 32 + lo.toNat ∧
      t = { s with inputs := rest, responses := s.responses ++ [.done, .done], brightIn := t.brightIn }

/-- spec/10_state.md R31: `STATUS[3:0]` reads RESULT and `STATUS[31:4]` reads as 0, in every state. -/
def Obligations.StatusReadsResultAlone : Prop :=
  ∀ (s : State) (rest : List Input), s.cfg.wellFormed = true → s.inFlight = none →
    s.inputs = .access (wordAccess s.cfg 0x04 .read) :: rest →
    ∃ v : Word, step s = .next { s with inputs := rest, responses := s.responses ++ [.data v] } ∧
      v.extractLsb' 0 4 = s.result ∧ v.extractLsb' 4 28 = 0#28

/-! ## Reset, configuration, idling -/

/-- spec/70_reset_and_hazards.md R230, spec/10_state.md R36: reset sets every piece of the block's state, and issues no
transaction; power-on is the same. -/
def Obligations.ResetSetsEveryPieceOfState : Prop :=
  (∀ (s : State) (rest : List Input), s.cfg.wellFormed = true → s.inFlight = none → s.inputs = .reset :: rest →
    ∃ t, step s = .next t ∧ t.pix = List.replicate s.cfg.ledCount ⟨0#8, 0#8, 0#8, 0#8⟩ ∧
      t.bright = 0x3FF0000000000000#64 ∧ t.index = 0#32 ∧ t.color = 0#32 ∧ t.brightIn = 0#64 ∧ t.rdcolor = 0#32 ∧
      t.status = 0#32 ∧ t.inFlight = none ∧ t.cfg = s.cfg ∧ t.inputs = rest ∧ t.waits = s.waits ∧
      t.responses = s.responses ∧ t.sent = s.sent) ∧
  (∀ c : Config, (State.resetOf c).pix = List.replicate c.ledCount ⟨0#8, 0#8, 0#8, 0#8⟩ ∧
    (State.resetOf c).bright = 0x3FF0000000000000#64 ∧ (State.resetOf c).index = 0#32 ∧
    (State.resetOf c).color = 0#32 ∧ (State.resetOf c).brightIn = 0#64 ∧ (State.resetOf c).rdcolor = 0#32 ∧
    (State.resetOf c).status = 0#32 ∧ (State.resetOf c).inFlight = none ∧ (State.resetOf c).sent = [])

/-- spec/00_scope.md R12: which configurations are well formed; "A model refuses any other configuration. It never gives
one a meaning." -/
def Obligations.ConfigurationsAreWellFormedOrRefused : Prop :=
  (∀ c : Config, c.wellFormed = true ↔
    (1 ≤ c.ledCount ∧ c.ledCount ≤ 2 ^ 31 - 1) ∧ (2 ≤ c.width ∧ c.width ≤ 8) ∧
    (c.p0 < 2 ^ c.width ∧ c.p1 < 2 ^ c.width ∧ c.p0 ≠ c.p1) ∧ c.resetBytes ≤ 2 ^ 24 ∧ ScaleLaws (scale8 c.scale)) ∧
  (∀ s : State, s.cfg.wellFormed = false →
    step s = .refused .illFormedConfig ∧ ∀ i, exec i s = .refused .illFormedConfig)

/-- Nothing can change the configuration while the block runs (spec/00_scope.md section 3). -/
def Obligations.ConfigurationNeverChanges : Prop := ∀ s t : State, step s = .next t → t.cfg = s.cfg

/-- spec/60_exceptions.md R216: between commands the state stays until the next access or reset. -/
def Obligations.IdleBlockKeepsItsState : Prop :=
  ∀ s : State, s.cfg.wellFormed = true → s.inFlight = none → s.inputs = [] → step s = .next s

/-! ## Invariants and whole-machine rules -/

/-- spec/10_state.md R37: from every state in which the invariants hold, a step gives a state in which they hold. -/
def Obligations.InvariantsAreKeptByEveryStep : Prop := ∀ s t : State, Inv s → step s = .next t → Inv t

/-- The invariants hold after reset, in every well-formed configuration. -/
def Obligations.InvariantsHoldAfterReset : Prop := ∀ c : Config, c.wellFormed = true → Inv (State.resetOf c)

/-- A frame in flight stays the frame of the state as it stands: no access can change what it was computed from before
the Transport answers (spec/42_strip_commands.md R145). -/
def Obligations.FrameInFlightStaysCurrent : Prop :=
  ∀ s t : State, FrameInFlightIsCurrent s → step s = .next t → FrameInFlightIsCurrent t

/-- spec/10_state.md R23, R26, R30: only SET_PIXEL and SET_ALL write PIX, only a successful SET_BRIGHTNESS writes BRIGHT,
only a successful GET_PIXEL writes RDCOLOR; a reset apart. -/
def Obligations.OnlyTheNamedCommandsWrite : Prop :=
  ∀ s t : State, step s = .next t → ¬ TakesReset s →
    (t.pix ≠ s.pix → (TakesCommand s 0x00000001#32 ∨ TakesCommand s 0x00000002#32) ∧ t.result = 0#4) ∧
    (t.bright ≠ s.bright →
      TakesCommand s 0x00000003#32 ∧ t.result = 0#4 ∧ t.bright = s.brightIn ∧ brightValid t.bright = true) ∧
    (t.rdcolor ≠ s.rdcolor → TakesCommand s 0x00000005#32 ∧ t.result = 0#4)

/-- spec/10_state.md R31: register reads, writes that are not CMD writes, and bus errors leave STATUS unchanged. -/
def Obligations.OnlyCommandsWriteStatus : Prop :=
  ∀ s t : State, step s = .next t → t.status ≠ s.status →
    TakesReset s ∨ (∃ v, TakesCommand s v) ∨ s.inFlight ≠ none

/-- Only host writes and resets change the operand registers: no command does (spec/70_reset_and_hazards.md R235). -/
def Obligations.CommandsKeepTheOperandRegisters : Prop :=
  ∀ (i : Instr) (s t : State), exec i s = .next t → t.index = s.index ∧ t.color = s.color ∧ t.brightIn = s.brightIn

/-- spec/10_state.md R24: a step leaves each pixel as it was, or holding COLOR unscaled, or, on a reset, black. -/
def Obligations.PixelsAreStoredUnscaled : Prop :=
  ∀ (s t : State) (p : Nat), step s = .next t → p < s.cfg.ledCount →
    t.pixel p = s.pixel p ∨ t.pixel p = unpackColor s.color ∨ (TakesReset s ∧ t.pixel p = Color.black)

/-- spec/42_strip_commands.md R148: the frame that a SHOW hands over changes only by a successful SET_PIXEL, SET_ALL or
SET_BRIGHTNESS, or by a reset. -/
def Obligations.FrameChangesOnlyBySuccessfulSets : Prop :=
  ∀ s t : State, step s = .next t → t.frame ≠ s.frame →
    TakesReset s ∨
    ((TakesCommand s 0x00000001#32 ∨ TakesCommand s 0x00000002#32 ∨ TakesCommand s 0x00000003#32) ∧ t.result = 0#4)

/-! ## The Color Model -/

/-- spec/40_color_model.md R101, on every integer. -/
def Obligations.ClampingBoundsEveryInteger : Prop :=
  ∀ x : Int, (x < 0 → (clamp8 x).toNat = 0) ∧ (255 < x → (clamp8 x).toNat = 255) ∧
    (0 ≤ x → x ≤ 255 → ((clamp8 x).toNat : Int) = x)

/-- spec/40_color_model.md R102 and spec/30_encoding.md R78: what the pseudo-instructions write to COLOR unpacks to the
constructed color. -/
def Obligations.PackedColorsUnpack : Prop :=
  ∀ r g b w : Int, unpackColor (pack r g b (some w)) = mkColor4 r g b w ∧ unpackColor (pack r g b none) = mkColor3 r g b

/-- spec/40_color_model.md R105: the two forms of `bright_valid` are the same predicate. -/
def Obligations.BrightValidFormsAgree : Prop :=
  ∀ b : Bits64,
    brightValid b =
      (!fl64IsNan b && fl64Le 0x0000000000000000#64 b && fl64Le b 0x3FF0000000000000#64) ∧
    brightValid b = (decide (b.toNat ≤ 0x3FF0000000000000) || decide (b = 0x8000000000000000#64))

/-- spec/40_color_model.md R107: the laws, for the default, the named alternatives and any other configured `SCALE`. -/
def Obligations.EveryScaleSatisfiesTheLaws : Prop := ∀ k : ScaleKind, ScaleLaws (scale8 k)

/-- spec/40_color_model.md R106, spec/00_scope.md R16: the default is the exact product `P * 2^E`, rounded to the nearest
53-bit value `Q * 2^(E + sh)`, ties to even, and then truncated. `M` and `E` are read from the exponent field `b[62:52]` and
the fraction field `b[51:0]`, `P = c * M`, and `sh` is how many bits `P` has past 53. -/
def Obligations.DefaultScaleTruncatesTheNearestProduct : Prop :=
  ∀ (c : Byte) (b : Bits64), brightValid b = true →
    ∃ (M P Q sh : Nat) (E : Int),
      ((b.extractLsb' 52 11).toNat = 0 → M = (b.extractLsb' 0 52).toNat ∧ E = -1074) ∧
      ((b.extractLsb' 52 11).toNat ≠ 0 →
        M = (b.extractLsb' 0 52).toNat + 2 ^ 52 ∧ E = ((b.extractLsb' 52 11).toNat : Int) - 1075) ∧
      P = c.toNat * M ∧
      2 * ((Q * 2 ^ sh : Int) - (P : Int)).natAbs ≤ 2 ^ sh ∧
      (2 * ((Q * 2 ^ sh : Int) - (P : Int)).natAbs = 2 ^ sh → Q % 2 = 0) ∧
      P < 2 ^ (53 + sh) ∧ (0 < sh → 2 ^ (52 + sh) ≤ P) ∧
      (scale8 .fl64Trunc c b).toNat =
        (if 0 ≤ E + (sh : Int) then Q * 2 ^ (E + (sh : Int)).toNat else Q / 2 ^ (-(E + (sh : Int))).toNat)

/-- spec/40_color_model.md R109. -/
def Obligations.WireOrderIsGreenRedBlueWhite : Prop :=
  ∀ c : Color, wireOrderChannels c true = [c.green, c.red, c.blue, c.white] ∧
    wireOrderChannels c false = [c.green, c.red, c.blue]

/-- spec/40_color_model.md R110. -/
def Obligations.ReorderingAndScalingCommute : Prop :=
  ∀ (k : ScaleKind) (c : Color) (b : Bits64) (h : Bool),
    wireOrderChannels (scaled k c b) h = (wireOrderChannels c h).map (fun x => scale8 k x b)

/-- spec/10_state.md R25, spec/40_color_model.md R104: with `HAS_WHITE = 0` no white component reaches the frame. -/
def Obligations.WhiteNeverReachesAnRgbFrame : Prop :=
  ∀ s t : State, s.cfg.hasWhite = false → t.cfg = s.cfg → t.bright = s.bright →
    (∀ p, p < s.cfg.ledCount → (t.pixel p).red = (s.pixel p).red ∧ (t.pixel p).green = (s.pixel p).green ∧
      (t.pixel p).blue = (s.pixel p).blue) →
    t.frame = s.frame

/-! ## The Bit Encoder -/

/-- spec/41_bit_encoder.md R125: the round trip, both ways. -/
def Obligations.EncodedBytesRoundTrip : Prop :=
  ∀ (c : Config) (v : Byte), c.wellFormed = true →
    (encodeByte c v).length = c.width ∧ decodeByte c (encodeByte c v) = some v ∧
    ∀ bs, decodeByte c bs = some v → encodeByte c v = bs

/-- spec/41_bit_encoder.md R121, R122: on the wire, most significant bit of each byte first, `encode_byte(v)` is the
pattern of `v[7]`, then of `v[6]`, and so on to `v[0]`, each from its bit `W-1` down. -/
def Obligations.EncodedBytesCarryThePatternStream : Prop :=
  ∀ (c : Config) (v : Byte), c.wellFormed = true →
    wireBits (encodeByte c v) =
      (List.range 8).flatMap fun i => (List.range c.width).map fun k =>
        (if v.getLsbD (7 - i) then c.p1 else c.p0).testBit (c.width - 1 - k)

/-- spec/41_bit_encoder.md R123: the closed form for the default patterns. -/
def Obligations.DefaultPatternsClosedForm : Prop :=
  ∀ (c : Config) (v : Byte), DefaultPatterns c →
    (∀ i, i < 8 → (pulseStream c v).testBit (3 * i + 2) = true ∧ (pulseStream c v).testBit (3 * i + 1) = v.getLsbD i ∧
      (pulseStream c v).testBit (3 * i) = false) ∧
    pulseStream c v = 0x924924 ||| ((List.range 8).map fun i => (v.getLsbD i).toNat <<< (3 * i + 1)).sum ∧
    encodeByte c v =
      [BitVec.ofNat 8 (pulseStream c v >>> 16), BitVec.ofNat 8 (pulseStream c v >>> 8), BitVec.ofNat 8 (pulseStream c v)]

/-! ## The Frame Builder -/

/-- spec/43_frame_builder.md R183: the length of a frame and each of its bytes. The channels of a pixel are those of
spec/40_color_model.md R111: its color scaled by the brightness, then put in wire order. -/
def Obligations.FrameLayout : Prop :=
  ∀ s : State, s.cfg.wellFormed = true →
    s.frame.length = 2 * s.cfg.resetBytes + s.cfg.ledCount * s.cfg.channels * s.cfg.width ∧
    (∀ k, k < s.cfg.resetBytes → s.frame[k]? = some 0x00#8) ∧
    (∀ k t, k = s.cfg.resetBytes + t → t < s.cfg.ledCount * s.cfg.channels * s.cfg.width →
      ∃ x, (wireOrderChannels (scaled s.cfg.scale (s.pixel (t / (s.cfg.channels * s.cfg.width))) s.bright)
          s.cfg.hasWhite)[t % (s.cfg.channels * s.cfg.width) / s.cfg.width]? = some x ∧
        s.frame[k]? = (encodeByte s.cfg x)[t % s.cfg.width]?) ∧
    (∀ k, s.cfg.resetBytes + s.cfg.ledCount * s.cfg.channels * s.cfg.width ≤ k →
      k < 2 * s.cfg.resetBytes + s.cfg.ledCount * s.cfg.channels * s.cfg.width → s.frame[k]? = some 0x00#8)

/-- spec/43_frame_builder.md R185: decoding the pixel data recovers the scaled wire-order channels
(spec/40_color_model.md R111). -/
def Obligations.FrameDecodesToTheScaledChannels : Prop :=
  ∀ (s : State) (p ch : Nat), s.cfg.wellFormed = true → p < s.cfg.ledCount → ch < s.cfg.channels →
    ∃ x, (wireOrderChannels (scaled s.cfg.scale (s.pixel p) s.bright) s.cfg.hasWhite)[ch]? = some x ∧
      decodeByte s.cfg
        ((s.frame.drop (s.cfg.resetBytes + (p * s.cfg.channels + ch) * s.cfg.width)).take s.cfg.width) = some x

/-- spec/43_frame_builder.md R181: the reset runs hold the line low, and with the default patterns no run of zero bits
inside the pixel data is longer than 2. -/
def Obligations.ResetRunsAreLowAndPixelDataIsNot : Prop :=
  ∀ s : State,
    wireBits (s.frame.take s.cfg.resetBytes) = List.replicate (8 * s.cfg.resetBytes) false ∧
    wireBits (s.frame.drop (s.frame.length - s.cfg.resetBytes)) = List.replicate (8 * s.cfg.resetBytes) false ∧
    (DefaultPatterns s.cfg → ∀ k, k + 2 < (wireBits (render s.cfg s.pixel s.bright).flatten).length →
      ∃ j, j < 3 ∧ (wireBits (render s.cfg s.pixel s.bright).flatten)[k + j]? = some true)

/-- spec/70_reset_and_hazards.md R238: between the pixel data of two consecutive frames that both reach the wire, the
line carries at least `2 * R` zero bytes. -/
def Obligations.TwoResetRunsBetweenFrames : Prop :=
  ∀ (n m : Nat) (x y : List (List Byte)) (r : Nat),
    wireOf n ⟨buildFrame x r, .ok⟩ ++ wireOf m ⟨buildFrame y r, .ok⟩ =
      (List.replicate (8 * r) false ++ wireBits x.flatten) ++ List.replicate (8 * (2 * r)) false ++
        (wireBits y.flatten ++ List.replicate (8 * r) false)
end

