-- ==== Sys2Proof/Laws/State.lean ====
section
/-! SUPPORT. One lemma per field per update of the state, true by unfolding, so that no later proof unfolds a record
update. -/

namespace Sys2Proof.Machine

/-! What a pixel store changes (its own field first), and that it changes nothing else. -/

@[simp] theorem State.setPixel_pix (s : State) (p : Nat) (c : Color) : (s.setPixel p c).pix = s.pix.set p c := rfl
@[simp] theorem State.setPixel_cfg (s : State) (p : Nat) (c : Color) : (s.setPixel p c).cfg = s.cfg := rfl
@[simp] theorem State.setPixel_bright (s : State) (p : Nat) (c : Color) : (s.setPixel p c).bright = s.bright := rfl
@[simp] theorem State.setPixel_index (s : State) (p : Nat) (c : Color) : (s.setPixel p c).index = s.index := rfl
@[simp] theorem State.setPixel_color (s : State) (p : Nat) (c : Color) : (s.setPixel p c).color = s.color := rfl
@[simp] theorem State.setPixel_brightIn (s : State) (p : Nat) (c : Color) : (s.setPixel p c).brightIn = s.brightIn := rfl
@[simp] theorem State.setPixel_rdcolor (s : State) (p : Nat) (c : Color) : (s.setPixel p c).rdcolor = s.rdcolor := rfl
@[simp] theorem State.setPixel_status (s : State) (p : Nat) (c : Color) : (s.setPixel p c).status = s.status := rfl
@[simp] theorem State.setPixel_inFlight (s : State) (p : Nat) (c : Color) : (s.setPixel p c).inFlight = s.inFlight := rfl
@[simp] theorem State.setPixel_inputs (s : State) (p : Nat) (c : Color) : (s.setPixel p c).inputs = s.inputs := rfl
@[simp] theorem State.setPixel_waits (s : State) (p : Nat) (c : Color) : (s.setPixel p c).waits = s.waits := rfl
@[simp] theorem State.setPixel_responses (s : State) (p : Nat) (c : Color) : (s.setPixel p c).responses = s.responses := rfl
@[simp] theorem State.setPixel_sent (s : State) (p : Nat) (c : Color) : (s.setPixel p c).sent = s.sent := rfl

/-! What a store to every pixel changes (its own field first), and that it changes nothing else. -/

@[simp] theorem State.fillPixels_pix (s : State) (c : Color) : (s.fillPixels c).pix = List.replicate s.cfg.ledCount c := rfl
@[simp] theorem State.fillPixels_cfg (s : State) (c : Color) : (s.fillPixels c).cfg = s.cfg := rfl
@[simp] theorem State.fillPixels_bright (s : State) (c : Color) : (s.fillPixels c).bright = s.bright := rfl
@[simp] theorem State.fillPixels_index (s : State) (c : Color) : (s.fillPixels c).index = s.index := rfl
@[simp] theorem State.fillPixels_color (s : State) (c : Color) : (s.fillPixels c).color = s.color := rfl
@[simp] theorem State.fillPixels_brightIn (s : State) (c : Color) : (s.fillPixels c).brightIn = s.brightIn := rfl
@[simp] theorem State.fillPixels_rdcolor (s : State) (c : Color) : (s.fillPixels c).rdcolor = s.rdcolor := rfl
@[simp] theorem State.fillPixels_status (s : State) (c : Color) : (s.fillPixels c).status = s.status := rfl
@[simp] theorem State.fillPixels_inFlight (s : State) (c : Color) : (s.fillPixels c).inFlight = s.inFlight := rfl
@[simp] theorem State.fillPixels_inputs (s : State) (c : Color) : (s.fillPixels c).inputs = s.inputs := rfl
@[simp] theorem State.fillPixels_waits (s : State) (c : Color) : (s.fillPixels c).waits = s.waits := rfl
@[simp] theorem State.fillPixels_responses (s : State) (c : Color) : (s.fillPixels c).responses = s.responses := rfl
@[simp] theorem State.fillPixels_sent (s : State) (c : Color) : (s.fillPixels c).sent = s.sent := rfl

/-! What a store to BRIGHT changes (its own field first), and that it changes nothing else. -/

@[simp] theorem State.setBright_bright (s : State) (b : Bits64) : (s.setBright b).bright = b := rfl
@[simp] theorem State.setBright_cfg (s : State) (b : Bits64) : (s.setBright b).cfg = s.cfg := rfl
@[simp] theorem State.setBright_pix (s : State) (b : Bits64) : (s.setBright b).pix = s.pix := rfl
@[simp] theorem State.setBright_index (s : State) (b : Bits64) : (s.setBright b).index = s.index := rfl
@[simp] theorem State.setBright_color (s : State) (b : Bits64) : (s.setBright b).color = s.color := rfl
@[simp] theorem State.setBright_brightIn (s : State) (b : Bits64) : (s.setBright b).brightIn = s.brightIn := rfl
@[simp] theorem State.setBright_rdcolor (s : State) (b : Bits64) : (s.setBright b).rdcolor = s.rdcolor := rfl
@[simp] theorem State.setBright_status (s : State) (b : Bits64) : (s.setBright b).status = s.status := rfl
@[simp] theorem State.setBright_inFlight (s : State) (b : Bits64) : (s.setBright b).inFlight = s.inFlight := rfl
@[simp] theorem State.setBright_inputs (s : State) (b : Bits64) : (s.setBright b).inputs = s.inputs := rfl
@[simp] theorem State.setBright_waits (s : State) (b : Bits64) : (s.setBright b).waits = s.waits := rfl
@[simp] theorem State.setBright_responses (s : State) (b : Bits64) : (s.setBright b).responses = s.responses := rfl
@[simp] theorem State.setBright_sent (s : State) (b : Bits64) : (s.setBright b).sent = s.sent := rfl

/-! What a store to RDCOLOR changes (its own field first), and that it changes nothing else. -/

@[simp] theorem State.setRdcolor_rdcolor (s : State) (v : Word) : (s.setRdcolor v).rdcolor = v := rfl
@[simp] theorem State.setRdcolor_cfg (s : State) (v : Word) : (s.setRdcolor v).cfg = s.cfg := rfl
@[simp] theorem State.setRdcolor_pix (s : State) (v : Word) : (s.setRdcolor v).pix = s.pix := rfl
@[simp] theorem State.setRdcolor_bright (s : State) (v : Word) : (s.setRdcolor v).bright = s.bright := rfl
@[simp] theorem State.setRdcolor_index (s : State) (v : Word) : (s.setRdcolor v).index = s.index := rfl
@[simp] theorem State.setRdcolor_color (s : State) (v : Word) : (s.setRdcolor v).color = s.color := rfl
@[simp] theorem State.setRdcolor_brightIn (s : State) (v : Word) : (s.setRdcolor v).brightIn = s.brightIn := rfl
@[simp] theorem State.setRdcolor_status (s : State) (v : Word) : (s.setRdcolor v).status = s.status := rfl
@[simp] theorem State.setRdcolor_inFlight (s : State) (v : Word) : (s.setRdcolor v).inFlight = s.inFlight := rfl
@[simp] theorem State.setRdcolor_inputs (s : State) (v : Word) : (s.setRdcolor v).inputs = s.inputs := rfl
@[simp] theorem State.setRdcolor_waits (s : State) (v : Word) : (s.setRdcolor v).waits = s.waits := rfl
@[simp] theorem State.setRdcolor_responses (s : State) (v : Word) : (s.setRdcolor v).responses = s.responses := rfl
@[simp] theorem State.setRdcolor_sent (s : State) (v : Word) : (s.setRdcolor v).sent = s.sent := rfl

/-! What a result code changes (its own field first), and that it changes nothing else. -/

@[simp] theorem State.setResult_status (s : State) (r : ResultCode) : (s.setResult r).status = s.status.extractLsb' 4 28 ++ r.code := rfl
@[simp] theorem State.setResult_cfg (s : State) (r : ResultCode) : (s.setResult r).cfg = s.cfg := rfl
@[simp] theorem State.setResult_pix (s : State) (r : ResultCode) : (s.setResult r).pix = s.pix := rfl
@[simp] theorem State.setResult_bright (s : State) (r : ResultCode) : (s.setResult r).bright = s.bright := rfl
@[simp] theorem State.setResult_index (s : State) (r : ResultCode) : (s.setResult r).index = s.index := rfl
@[simp] theorem State.setResult_color (s : State) (r : ResultCode) : (s.setResult r).color = s.color := rfl
@[simp] theorem State.setResult_brightIn (s : State) (r : ResultCode) : (s.setResult r).brightIn = s.brightIn := rfl
@[simp] theorem State.setResult_rdcolor (s : State) (r : ResultCode) : (s.setResult r).rdcolor = s.rdcolor := rfl
@[simp] theorem State.setResult_inFlight (s : State) (r : ResultCode) : (s.setResult r).inFlight = s.inFlight := rfl
@[simp] theorem State.setResult_inputs (s : State) (r : ResultCode) : (s.setResult r).inputs = s.inputs := rfl
@[simp] theorem State.setResult_waits (s : State) (r : ResultCode) : (s.setResult r).waits = s.waits := rfl
@[simp] theorem State.setResult_responses (s : State) (r : ResultCode) : (s.setResult r).responses = s.responses := rfl
@[simp] theorem State.setResult_sent (s : State) (r : ResultCode) : (s.setResult r).sent = s.sent := rfl

/-! What a bus answer changes (its own field first), and that it changes nothing else. -/

@[simp] theorem State.respond_responses (s : State) (r : Response) : (s.respond r).responses = s.responses ++ [r] := rfl
@[simp] theorem State.respond_cfg (s : State) (r : Response) : (s.respond r).cfg = s.cfg := rfl
@[simp] theorem State.respond_pix (s : State) (r : Response) : (s.respond r).pix = s.pix := rfl
@[simp] theorem State.respond_bright (s : State) (r : Response) : (s.respond r).bright = s.bright := rfl
@[simp] theorem State.respond_index (s : State) (r : Response) : (s.respond r).index = s.index := rfl
@[simp] theorem State.respond_color (s : State) (r : Response) : (s.respond r).color = s.color := rfl
@[simp] theorem State.respond_brightIn (s : State) (r : Response) : (s.respond r).brightIn = s.brightIn := rfl
@[simp] theorem State.respond_rdcolor (s : State) (r : Response) : (s.respond r).rdcolor = s.rdcolor := rfl
@[simp] theorem State.respond_status (s : State) (r : Response) : (s.respond r).status = s.status := rfl
@[simp] theorem State.respond_inFlight (s : State) (r : Response) : (s.respond r).inFlight = s.inFlight := rfl
@[simp] theorem State.respond_inputs (s : State) (r : Response) : (s.respond r).inputs = s.inputs := rfl
@[simp] theorem State.respond_waits (s : State) (r : Response) : (s.respond r).waits = s.waits := rfl
@[simp] theorem State.respond_sent (s : State) (r : Response) : (s.respond r).sent = s.sent := rfl

/-! What reset leaves (spec/10_state.md R36), and what it keeps. -/

@[simp] theorem State.resetBlock_cfg (s : State) : s.resetBlock.cfg = s.cfg := rfl
@[simp] theorem State.resetBlock_pix (s : State) : s.resetBlock.pix = List.replicate s.cfg.ledCount Color.black := rfl
@[simp] theorem State.resetBlock_bright (s : State) : s.resetBlock.bright = 0x3FF0000000000000#64 := rfl
@[simp] theorem State.resetBlock_index (s : State) : s.resetBlock.index = 0#32 := rfl
@[simp] theorem State.resetBlock_color (s : State) : s.resetBlock.color = 0#32 := rfl
@[simp] theorem State.resetBlock_brightIn (s : State) : s.resetBlock.brightIn = 0#64 := rfl
@[simp] theorem State.resetBlock_rdcolor (s : State) : s.resetBlock.rdcolor = 0#32 := rfl
@[simp] theorem State.resetBlock_status (s : State) : s.resetBlock.status = 0#32 := rfl
@[simp] theorem State.resetBlock_inFlight (s : State) : s.resetBlock.inFlight = none := rfl
@[simp] theorem State.resetBlock_inputs (s : State) : s.resetBlock.inputs = s.inputs := rfl
@[simp] theorem State.resetBlock_waits (s : State) : s.resetBlock.waits = s.waits := rfl
@[simp] theorem State.resetBlock_responses (s : State) : s.resetBlock.responses = s.responses := rfl
@[simp] theorem State.resetBlock_sent (s : State) : s.resetBlock.sent = s.sent := rfl

@[simp] theorem State.resetOf_cfg (c : Config) : (State.resetOf c).cfg = c := rfl
@[simp] theorem State.resetOf_pix (c : Config) : (State.resetOf c).pix = List.replicate c.ledCount Color.black := rfl
@[simp] theorem State.resetOf_bright (c : Config) : (State.resetOf c).bright = 0x3FF0000000000000#64 := rfl
@[simp] theorem State.resetOf_index (c : Config) : (State.resetOf c).index = 0#32 := rfl
@[simp] theorem State.resetOf_color (c : Config) : (State.resetOf c).color = 0#32 := rfl
@[simp] theorem State.resetOf_brightIn (c : Config) : (State.resetOf c).brightIn = 0#64 := rfl
@[simp] theorem State.resetOf_rdcolor (c : Config) : (State.resetOf c).rdcolor = 0#32 := rfl
@[simp] theorem State.resetOf_status (c : Config) : (State.resetOf c).status = 0#32 := rfl
@[simp] theorem State.resetOf_inFlight (c : Config) : (State.resetOf c).inFlight = none := rfl
@[simp] theorem State.resetOf_inputs (c : Config) : (State.resetOf c).inputs = [] := rfl
@[simp] theorem State.resetOf_waits (c : Config) : (State.resetOf c).waits = [] := rfl
@[simp] theorem State.resetOf_responses (c : Config) : (State.resetOf c).responses = [] := rfl
@[simp] theorem State.resetOf_sent (c : Config) : (State.resetOf c).sent = [] := rfl

/-! What the completion of a SHOW changes. -/

@[simp] theorem State.completeShow_cfg (s : State) (f : List Byte) (a : Answer) :
    (s.completeShow f a).cfg = s.cfg := rfl
@[simp] theorem State.completeShow_pix (s : State) (f : List Byte) (a : Answer) :
    (s.completeShow f a).pix = s.pix := rfl
@[simp] theorem State.completeShow_bright (s : State) (f : List Byte) (a : Answer) :
    (s.completeShow f a).bright = s.bright := rfl
@[simp] theorem State.completeShow_index (s : State) (f : List Byte) (a : Answer) :
    (s.completeShow f a).index = s.index := rfl
@[simp] theorem State.completeShow_color (s : State) (f : List Byte) (a : Answer) :
    (s.completeShow f a).color = s.color := rfl
@[simp] theorem State.completeShow_brightIn (s : State) (f : List Byte) (a : Answer) :
    (s.completeShow f a).brightIn = s.brightIn := rfl
@[simp] theorem State.completeShow_rdcolor (s : State) (f : List Byte) (a : Answer) :
    (s.completeShow f a).rdcolor = s.rdcolor := rfl
@[simp] theorem State.completeShow_status (s : State) (f : List Byte) (a : Answer) :
    (s.completeShow f a).status = s.status.extractLsb' 4 28 ++ (answerCode a).code := rfl
@[simp] theorem State.completeShow_inFlight (s : State) (f : List Byte) (a : Answer) :
    (s.completeShow f a).inFlight = none := rfl
@[simp] theorem State.completeShow_inputs (s : State) (f : List Byte) (a : Answer) :
    (s.completeShow f a).inputs = s.inputs := rfl
@[simp] theorem State.completeShow_waits (s : State) (f : List Byte) (a : Answer) :
    (s.completeShow f a).waits = s.waits := rfl
@[simp] theorem State.completeShow_responses (s : State) (f : List Byte) (a : Answer) :
    (s.completeShow f a).responses = s.responses := rfl
@[simp] theorem State.completeShow_sent (s : State) (f : List Byte) (a : Answer) :
    (s.completeShow f a).sent = s.sent ++ [{ frame := f, answer := a }] := rfl

end Sys2Proof.Machine
end

