-- ==== Sys2Proof/Laws/Ops.lean ====
section
/-! SUPPORT. For each shared operation, once, everything it can do. -/

namespace Sys2Proof.Machine

/-! The guard on the configuration. -/

theorem configured_of_wellFormed {s : State} (h : s.cfg.wellFormed = true) (o : Host.Outcome State Fault Refusal) :
    configured s o = o := by simp [configured, h]

theorem configured_next_iff {s t : State} {o : Host.Outcome State Fault Refusal} :
    configured s o = .next t ↔ s.cfg.wellFormed = true ∧ o = .next t := by
  unfold configured
  split <;> simp_all

theorem mapNext_next_iff {f : State → State} {o : Host.Outcome State Fault Refusal} {t : State} :
    mapNext f o = .next t ↔ ∃ u, o = .next u ∧ f u = t := by
  cases o <;> simp [mapNext]

/-! Pixels. -/

theorem pixel_setPixel_same {s : State} {p : Nat} (c : Color) (h : p < s.pix.length) :
    (s.setPixel p c).pixel p = c := by simp [State.pixel, List.getD, h]

theorem pixel_setPixel_other {s : State} {p q : Nat} (c : Color) (h : q ≠ p) :
    (s.setPixel p c).pixel q = s.pixel q := by
  simp [State.pixel, List.getD, List.getElem?_set_ne (Ne.symm h)]

theorem pixel_fillPixels {s : State} {p : Nat} (c : Color) (h : p < s.cfg.ledCount) :
    (s.fillPixels c).pixel p = c := by simp [State.pixel, List.getD, h]

/-- The pixel operand is the index, exactly where it names a pixel. -/
theorem pixelOperand_eq_some_iff {s : State} {p : Nat} :
    s.pixelOperand = some p ↔ s.index.toInt = (p : Int) ∧ p < s.cfg.ledCount := by
  unfold State.pixelOperand State.indexOperand
  split
  · simp only [Option.some.injEq]; omega
  · simp only [reduceCtorEq, false_iff]; omega

theorem pixelOperand_eq_none_iff {s : State} :
    s.pixelOperand = none ↔ s.index.toInt < 0 ∨ (s.cfg.ledCount : Int) ≤ s.index.toInt := by
  unfold State.pixelOperand State.indexOperand
  split
  · simp only [reduceCtorEq, false_iff]; omega
  · simp only [true_iff]; omega

/-! The result field. -/

@[simp] theorem result_setResult (s : State) (r : ResultCode) : (s.setResult r).result = r.code := by
  unfold State.result
  rw [State.setResult_status]
  ext i hi
  rw [BitVec.getElem_extractLsb', Nat.zero_add, BitVec.getLsbD_append]
  simp [hi]

/-- `STATUS[31:4]` is not written by a result code. -/
@[simp] theorem reserved_setResult (s : State) (r : ResultCode) :
    (s.setResult r).status.extractLsb' 4 28 = s.status.extractLsb' 4 28 := by
  rw [State.setResult_status]
  ext i hi
  rw [BitVec.getElem_extractLsb', BitVec.getLsbD_append]
  simp [hi]

theorem setResult_eq (s : State) (r : ResultCode) :
    s.setResult r = { s with status := (s.setResult r).status } := rfl

/-! Colors in a word. -/

/-- Packing a color into a word (spec/42_strip_commands.md R146) and unpacking it (spec/30_encoding.md R71) are
inverse. -/
theorem unpackColor_packColor (c : Color) : unpackColor (packColor c) = c := by
  unfold unpackColor packColor
  rw [Color.mk.injEq]
  refine ⟨?_, ?_, ?_, ?_⟩ <;> (ext i hi; simp only [BitVec.getElem_extractLsb', BitVec.getLsbD_append])
  · simp [hi]
  all_goals
    (repeat' split) <;> first | omega | (rw [BitVec.getLsbD_eq_getElem (by omega)]; congr 1; omega)

/-! The Transport port. -/

@[simp] theorem result_completeShow (s : State) (f : List Byte) (a : Answer) :
    (s.completeShow f a).result = (answerCode a).code := by
  unfold State.completeShow
  rw [result_setResult]

/-- `STATUS[31:4]` is not written by the completion of a SHOW. -/
@[simp] theorem reserved_completeShow (s : State) (f : List Byte) (a : Answer) :
    (s.completeShow f a).status.extractLsb' 4 28 = s.status.extractLsb' 4 28 := by
  unfold State.completeShow
  rw [reserved_setResult]

/-- Everything a waiting step can do, if it gives a next state. -/
theorem awaitAnswer_next {s t : State} (h : awaitAnswer s = .next t) :
    (t = s ∧ (s.inFlight = none ∨ s.waits = [])) ∨
    (∃ f rest, s.inFlight = some f ∧ s.waits = .pending :: rest ∧ t = { s with waits := rest }) ∨
    (∃ f a rest, s.inFlight = some f ∧ s.waits = .answer a :: rest ∧
      t = State.completeShow { s with waits := rest } f a) := by
  unfold awaitAnswer at h
  split at h <;> simp_all

/-- The frame is a function of the configuration, the pixels and the brightness. -/
theorem frame_congr {s t : State} (hc : t.cfg = s.cfg) (hp : t.pix = s.pix) (hb : t.bright = s.bright) :
    t.frame = s.frame := by
  have : t.pixel = s.pixel := by funext p; simp [State.pixel, hp]
  simp [State.frame, hc, hb, this]

/-- Everything a SHOW command can do, if it gives a next state. -/
theorem issueShow_next {s t : State} (h : issueShow s = .next t) :
    (s.waits = [] ∧ t = { s with inFlight := some s.frame }) ∨
    (∃ rest, s.waits = .pending :: rest ∧ t = { s with inFlight := some s.frame, waits := rest }) ∨
    (∃ a rest, s.waits = .answer a :: rest ∧ t = State.completeShow { s with waits := rest } s.frame a) := by
  rcases awaitAnswer_next h with ⟨rfl, h | h⟩ | ⟨f, rest, hf, hw, rfl⟩ | ⟨f, a, rest, hf, hw, rfl⟩
  · simp at h
  · exact .inl ⟨h, rfl⟩
  · exact .inr (.inl ⟨rest, hw, rfl⟩)
  · simp only [Option.some.injEq] at hf
    subst hf
    exact .inr (.inr ⟨a, rest, hw, rfl⟩)

end Sys2Proof.Machine
end

