-- ==== Sys2Proof/Laws/PerInstr.lean ====
section
/-! SUPPORT. The statements made per command: a well-formed command is what its own word decodes to
(spec/30_encoding.md R72 to R74). -/

namespace Sys2Proof.Laws.Encoding

/-- Decoding the command word of a well-formed command gives it back. -/
def Statement (i : Instr) : Prop := i.wellFormed = true → decodeCommand (encode i) = i

theorem nop : Statement .nop := fun _ => rfl

theorem setPixel : Statement .setPixel := fun _ => rfl

theorem setAll : Statement .setAll := fun _ => rfl

theorem setBrightness : Statement .setBrightness := fun _ => rfl

theorem showFrame : Statement .showFrame := fun _ => rfl

theorem getPixel : Statement .getPixel := fun _ => rfl

/-- Both ways a word can be illegal (spec/30_encoding.md R74). -/
theorem illegal (w : Word) : Statement (.illegal w) := by
  intro h
  simp only [Instr.wellFormed, decide_eq_true_eq] at h
  change decodeCommand w = .illegal w
  unfold decodeCommand reservedField opcodeField
  split
  · rfl
  · have h6 : 6 ≤ (w.extractLsb' 0 8).toNat := by simp_all
    split <;> first | rfl | omega

end Sys2Proof.Laws.Encoding

namespace Sys2Proof

/-- A word's byte lanes make the word again (spec/20_memory.md R53). -/
theorem wordOfLanes_lanesOfWord (v : Word) :
    wordOfLanes (v.extractLsb' 0 8) (v.extractLsb' 8 8) (v.extractLsb' 16 8) (v.extractLsb' 24 8) = v := by
  unfold wordOfLanes
  ext i hi
  simp only [BitVec.getElem_append, BitVec.getElem_extractLsb']
  (repeat' split) <;> (rw [BitVec.getLsbD_eq_getElem (by omega)]; congr 1; omega)

end Sys2Proof
end

