-- ==== Sys2Proof/Laws/Step.lean ====
section
/-! SUPPORT. What each command, each access and each step can do, said once. -/

namespace Sys2Proof.Machine

/-! Each command as an update of the state. -/

theorem exec_nop {s : State} (h : s.cfg.wellFormed = true) : exec .nop s = .next (s.setResult .ok) :=
  configured_of_wellFormed h _

theorem exec_setPixel_some {s : State} {p : Nat} (h : s.cfg.wellFormed = true) (hp : s.pixelOperand = some p) :
    exec .setPixel s = .next ((s.setPixel p s.colorOperand).setResult .ok) := by
  simp only [exec, execSetPixel, configured_of_wellFormed h, hp]

theorem exec_setPixel_none {s : State} (h : s.cfg.wellFormed = true) (hp : s.pixelOperand = none) :
    exec .setPixel s = .next (s.setResult .indexOutOfRange) := by
  simp only [exec, execSetPixel, configured_of_wellFormed h, hp]

theorem exec_setAll {s : State} (h : s.cfg.wellFormed = true) :
    exec .setAll s = .next ((s.fillPixels s.colorOperand).setResult .ok) :=
  configured_of_wellFormed h _

theorem exec_setBrightness_valid {s : State} (h : s.cfg.wellFormed = true) (hb : brightValid s.brightIn = true) :
    exec .setBrightness s = .next ((s.setBright s.brightIn).setResult .ok) := by
  simp only [exec, execSetBrightness, configured_of_wellFormed h, State.brightOperand, hb, if_true]

theorem exec_setBrightness_invalid {s : State} (h : s.cfg.wellFormed = true) (hb : brightValid s.brightIn = false) :
    exec .setBrightness s = .next (s.setResult .invalidBrightness) := by
  simp only [exec, execSetBrightness, configured_of_wellFormed h, State.brightOperand, hb, Bool.false_eq_true, if_false]

theorem exec_showFrame {s : State} (h : s.cfg.wellFormed = true) : exec .showFrame s = issueShow s :=
  configured_of_wellFormed h _

theorem exec_getPixel_some {s : State} {p : Nat} (h : s.cfg.wellFormed = true) (hp : s.pixelOperand = some p) :
    exec .getPixel s = .next ((s.setRdcolor (packColor (s.pixel p))).setResult .ok) := by
  simp only [exec, execGetPixel, configured_of_wellFormed h, hp]

theorem exec_getPixel_none {s : State} (h : s.cfg.wellFormed = true) (hp : s.pixelOperand = none) :
    exec .getPixel s = .next (s.setResult .indexOutOfRange) := by
  simp only [exec, execGetPixel, configured_of_wellFormed h, hp]

theorem exec_illegal {s : State} (w : Word) (h : s.cfg.wellFormed = true) :
    exec (.illegal w) s = .next (s.setResult .illegalCommand) :=
  configured_of_wellFormed h _

/-- A command runs only on a well-formed configuration. -/
theorem wellFormed_of_exec_next {i : Instr} {s t : State} (h : exec i s = .next t) : s.cfg.wellFormed = true := by
  cases i <;> exact (configured_next_iff.mp h).1

/-- Everything a command can do, if it gives a next state. -/
theorem exec_next_cases {i : Instr} {s t : State} (h : exec i s = .next t) :
    (i = .showFrame ∧ issueShow s = .next t) ∨ (i ≠ .showFrame ∧
      ((i = .nop ∧ t = s.setResult .ok) ∨
      (i = .setPixel ∧ ((∃ p, s.pixelOperand = some p ∧ t = (s.setPixel p s.colorOperand).setResult .ok) ∨ t = s.setResult .indexOutOfRange)) ∨
      (i = .setAll ∧ t = (s.fillPixels s.colorOperand).setResult .ok) ∨
      (i = .setBrightness ∧ ((brightValid s.brightIn = true ∧ t = (s.setBright s.brightIn).setResult .ok) ∨ t = s.setResult .invalidBrightness)) ∨
      (i = .getPixel ∧ ((∃ p, s.pixelOperand = some p ∧ t = (s.setRdcolor (packColor (s.pixel p))).setResult .ok) ∨ t = s.setResult .indexOutOfRange)) ∨
      (∃ w, i = .illegal w ∧ t = s.setResult .illegalCommand))) := by
  have hw := wellFormed_of_exec_next h
  cases i
  case showFrame => exact .inl ⟨rfl, by rwa [exec_showFrame hw] at h⟩
  case nop => rw [exec_nop hw] at h; cases h; simp
  case setAll => rw [exec_setAll hw] at h; cases h; simp
  case illegal w => rw [exec_illegal w hw] at h; cases h; simp
  case setPixel =>
    cases hp : s.pixelOperand with
    | none => rw [exec_setPixel_none hw hp] at h; cases h; simp
    | some p => rw [exec_setPixel_some hw hp] at h; cases h; simp
  case getPixel =>
    cases hp : s.pixelOperand with
    | none => rw [exec_getPixel_none hw hp] at h; cases h; simp
    | some p => rw [exec_getPixel_some hw hp] at h; cases h; simp
  case setBrightness =>
    cases hp : brightValid s.brightIn with
    | true => rw [exec_setBrightness_valid hw hp] at h; cases h; simp
    | false => rw [exec_setBrightness_invalid hw hp] at h; cases h; simp

/-! One access and one step. -/

/-- Everything an access can do, if it gives a next state: a bus error, a read, or a write. -/
theorem performAccess_next {a : Access} {s t : State} (h : performAccess a s = .next t) :
    ∃ o, windowOffset s.cfg a.addr = some o ∧
      (((a.bytes ≠ 4 ∨ o % 4 ≠ 0) ∧ t = s.respond .busError) ∨
       (a.bytes = 4 ∧ o % 4 = 0 ∧ a.direction = .read ∧ t = s.respond (.data (readReg s (regAt o)))) ∨
       (a.bytes = 4 ∧ o % 4 = 0 ∧ ∃ v, a.direction = .write v ∧
          ∃ u, writeReg s v (regAt o) = .next u ∧ t = finishWrite u)) := by
  unfold performAccess at h
  split at h
  · cases h
  · rename_i o ho
    refine ⟨o, ho, ?_⟩
    split at h
    · rename_i hb
      simp only [Host.Outcome.next.injEq] at h
      exact .inl ⟨hb, h.symm⟩
    · rename_i hb
      simp only [not_or, not_not] at hb
      split at h
      · rename_i hd
        simp only [Host.Outcome.next.injEq] at h
        exact .inr (.inl ⟨hb.1, hb.2, hd, h.symm⟩)
      · rename_i v hd
        obtain ⟨u, hu, rfl⟩ := mapNext_next_iff.mp h
        exact .inr (.inr ⟨hb.1, hb.2, v, hd, u, hu, rfl⟩)

/-- Everything a step can do, if it gives a next state: a waiting step of a SHOW, an idle step, a reset, an access. -/
theorem step_next {s t : State} (h : step s = .next t) :
    s.cfg.wellFormed = true ∧
    ((∃ f u, s.inFlight = some f ∧ awaitAnswer s = .next u ∧ t = finishWrite u) ∨
     (s.inFlight = none ∧ s.inputs = [] ∧ t = s) ∨
     (∃ rest, s.inFlight = none ∧ s.inputs = .reset :: rest ∧ t = State.resetBlock { s with inputs := rest }) ∨
     (∃ a rest, s.inFlight = none ∧ s.inputs = .access a :: rest ∧
        performAccess a { s with inputs := rest } = .next t)) := by
  obtain ⟨hwf, h⟩ := configured_next_iff.mp h
  refine ⟨hwf, ?_⟩
  unfold advance at h
  split at h
  · rename_i f hf
    obtain ⟨u, hu, rfl⟩ := mapNext_next_iff.mp h
    exact .inl ⟨f, u, hf, hu, rfl⟩
  · rename_i hf hi
    simp only [Host.Outcome.next.injEq] at h
    exact .inr (.inl ⟨hf, hi, h.symm⟩)
  · rename_i a rest hf hi
    exact .inr (.inr (.inr ⟨a, rest, hf, hi, h⟩))
  · rename_i rest hf hi
    simp only [Host.Outcome.next.injEq] at h
    exact .inr (.inr (.inl ⟨rest, hf, hi, h.symm⟩))

/-- A write to a register other than CMD changes at most the operand register it names, and always completes. -/
theorem writeReg_next_of_ne_cmd {s t : State} {v : Word} {r : Reg} (hr : r ≠ .cmd) (h : writeReg s v r = .next t) :
    t = { s with index := t.index, color := t.color, brightIn := t.brightIn } := by
  cases r <;> simp_all [writeReg] <;> subst h <;> rfl

/-- Only offset 0x00 is CMD. -/
theorem regAt_eq_cmd {o : Nat} (h : regAt o = .cmd) : o = 0 := by
  unfold regAt at h
  split at h <;> simp_all

/-! Answering a write changes nothing but the record of the bus's answers. -/

theorem finishWrite_eq (s : State) : finishWrite s = { s with responses := (finishWrite s).responses } := by
  unfold finishWrite
  split <;> rfl

@[simp] theorem finishWrite_cfg (s : State) : (finishWrite s).cfg = s.cfg := by rw [finishWrite_eq]
@[simp] theorem finishWrite_pix (s : State) : (finishWrite s).pix = s.pix := by rw [finishWrite_eq]
@[simp] theorem finishWrite_bright (s : State) : (finishWrite s).bright = s.bright := by rw [finishWrite_eq]
@[simp] theorem finishWrite_index (s : State) : (finishWrite s).index = s.index := by rw [finishWrite_eq]
@[simp] theorem finishWrite_color (s : State) : (finishWrite s).color = s.color := by rw [finishWrite_eq]
@[simp] theorem finishWrite_brightIn (s : State) : (finishWrite s).brightIn = s.brightIn := by rw [finishWrite_eq]
@[simp] theorem finishWrite_rdcolor (s : State) : (finishWrite s).rdcolor = s.rdcolor := by rw [finishWrite_eq]
@[simp] theorem finishWrite_status (s : State) : (finishWrite s).status = s.status := by rw [finishWrite_eq]
@[simp] theorem finishWrite_inFlight (s : State) : (finishWrite s).inFlight = s.inFlight := by rw [finishWrite_eq]
@[simp] theorem finishWrite_inputs (s : State) : (finishWrite s).inputs = s.inputs := by rw [finishWrite_eq]
@[simp] theorem finishWrite_waits (s : State) : (finishWrite s).waits = s.waits := by rw [finishWrite_eq]
@[simp] theorem finishWrite_sent (s : State) : (finishWrite s).sent = s.sent := by rw [finishWrite_eq]
@[simp] theorem finishWrite_result (s : State) : (finishWrite s).result = s.result := by rw [finishWrite_eq]; rfl

/-- Everything a step can do, spelled out to the end: a waiting step of a SHOW; an idle step; a reset; an access that is
no CMD write, which changes at most the operand registers; or a CMD write. -/
theorem step_cases {s t : State} (h : step s = .next t) :
    s.cfg.wellFormed = true ∧
    ((∃ f, s.inFlight = some f ∧ ((s.waits = [] ∧ t = s) ∨ (∃ r, s.waits = .pending :: r ∧ t = { s with waits := r }) ∨
        ∃ a r, s.waits = .answer a :: r ∧ t = (State.completeShow { s with waits := r } f a).respond .done)) ∨
     (s.inFlight = none ∧ s.inputs = [] ∧ t = s) ∨
     (∃ rest, s.inFlight = none ∧ s.inputs = .reset :: rest ∧ t = State.resetBlock { s with inputs := rest }) ∨
     (∃ a rest r, s.inFlight = none ∧ s.inputs = .access a :: rest ∧ (∀ v, a ≠ wordAccess s.cfg 0 (.write v)) ∧
        ∃ i c b, t = State.respond { s with inputs := rest, index := i, color := c, brightIn := b } r) ∨
     (∃ v rest u, s.inFlight = none ∧ s.inputs = .access (wordAccess s.cfg 0 (.write v)) :: rest ∧
        exec (decodeCommand v) { s with inputs := rest } = .next u ∧ t = finishWrite u)) := by
  obtain ⟨hw, h⟩ := step_next h
  refine ⟨hw, ?_⟩
  rcases h with ⟨f, u, hf, hu, rfl⟩ | h | h | ⟨a, rest, hf, hi, h⟩
  · left
    refine ⟨f, hf, ?_⟩
    rcases awaitAnswer_next hu with ⟨rfl, h | h⟩ | ⟨f', r, hf', hr, rfl⟩ | ⟨f', a, r, hf', hr, rfl⟩
    · simp [hf] at h
    · left; simp [h, finishWrite, hf]
    · right; left; simp [hr, finishWrite, hf]
    · right; right; rw [hf] at hf'; cases hf'; exact ⟨a, r, hr, by simp [finishWrite]⟩
  · exact .inr (.inl h)
  · exact .inr (.inr (.inl h))
  · obtain ⟨o, ho, h⟩ := performAccess_next h
    have base : s.cfg.base ≤ a.addr ∧ a.addr < s.cfg.base + 256 ∧ a.addr = s.cfg.base + o := by
      unfold windowOffset at ho; split at ho <;> simp_all; omega
    rcases h with ⟨hb, rfl⟩ | ⟨h4, ho4, hd, rfl⟩ | ⟨h4, ho4, v, hd, u, hu, rfl⟩
    · right; right; right; left
      refine ⟨a, rest, _, hf, hi, ?_, _, _, _, rfl⟩
      rintro v rfl
      simp only [wordAccess] at base hb; omega
    · right; right; right; left
      refine ⟨a, rest, _, hf, hi, ?_, _, _, _, rfl⟩
      rintro v rfl
      simp [wordAccess] at hd
    · by_cases hc : regAt o = .cmd
      · right; right; right; right
        have := regAt_eq_cmd hc
        subst this
        refine ⟨v, rest, u, hf, ?_, ?_, rfl⟩
        · rw [hi]; cases a; simp_all [wordAccess]
        · rw [hc] at hu; exact hu
      · right; right; right; left
        have := writeReg_next_of_ne_cmd hc hu
        refine ⟨a, rest, .done, hf, hi, ?_, u.index, u.color, u.brightIn, ?_⟩
        · rintro v' rfl
          have h0 : o = 0 := by simp only [wordAccess] at base; omega
          subst h0; exact hc rfl
        · rw [this]; simp [finishWrite, hf]

end Sys2Proof.Machine
end

