-- ==== Sys2Proof/Tests/Slice0.lean ====
section
/-! SUPPORT. Tests. Expected results are from spec/95_test_vectors.md or written out from the rule named; none is the
model's own answer. Then one witness for each statement that has hypotheses. -/

namespace Sys2Proof.Tests

open Sys2Proof.Machine

/-- A field of the next state, if there is one. -/
def after {α : Type} (o : Host.Outcome State Fault Refusal) (f : State → α) : Option α :=
  match o with
  | .next s => some (f s)
  | .fault _ => none
  | .refused _ => none

/-- The reference configuration with other `N`, `HAS_WHITE` and `R`, as spec/95_test_vectors.md gives them per vector. -/
def build (n : Nat) (white : Bool) (r : Nat) : Config :=
  { Config.reference with ledCount := n, hasWhite := white, resetBytes := r }

/-- A small machine after reset, `N = 4`. -/
def four : State := State.resetOf (build 4 false 1)

/-- A list of bytes, written as numbers. -/
def bytes (l : List Nat) : List Byte := l.map (BitVec.ofNat 8)

/-! ## Well-formedness: an ill-formed term for each check -/

/-- R74: 0x4 is SHOW's word, so no ILLEGAL. -/
theorem test_illegal_word_of_show_is_ill_formed : (Instr.illegal 0x00000004#32).wellFormed = false := by decide

theorem test_illegal_word_with_reserved_bit_is_well_formed : (Instr.illegal 0x00000104#32).wellFormed = true := by
  decide

/-- R12, one broken condition each: N = 0, N = 2^31, W = 1, W = 9, P0 and P1 too wide, P0 = P1, R = 2^24 + 1. -/
theorem test_ill_formed_configurations :
    ({ Config.reference with ledCount := 0 }).wellFormed = false ∧
    ({ Config.reference with ledCount := 2 ^ 31 }).wellFormed = false ∧
    ({ Config.reference with width := 1, p0 := 0, p1 := 1 }).wellFormed = false ∧
    ({ Config.reference with width := 9 }).wellFormed = false ∧
    ({ Config.reference with p0 := 8 }).wellFormed = false ∧
    ({ Config.reference with p1 := 8 }).wellFormed = false ∧
    ({ Config.reference with p1 := 0b100 }).wellFormed = false ∧
    ({ Config.reference with resetBytes := 2 ^ 24 + 1 }).wellFormed = false := by decide

/-- R12 at its bounds. -/
theorem test_well_formed_configurations :
    ({ Config.reference with ledCount := 1, resetBytes := 0 }).wellFormed = true ∧
    ({ Config.reference with ledCount := 2 ^ 31 - 1, resetBytes := 2 ^ 24 }).wellFormed = true ∧
    ({ Config.reference with width := 2, p0 := 0b10, p1 := 0b11 }).wellFormed = true ∧
    ({ Config.reference with width := 8, p0 := 0b11000000, p1 := 0b11111000 }).wellFormed = true := by decide

/-- R9: the default patterns are as recommended. -/
theorem test_default_patterns_recommended : Config.reference.recommended = true := by decide

/-! ## Decoding: every row's word, written out from R70 and R72 (`RSV` then `OPC`) -/

theorem test_decode_nop : decodeCommand 0b00000000000000000000000000000000#32 = .nop := by decide
theorem test_decode_set_pixel : decodeCommand 0b00000000000000000000000000000001#32 = .setPixel := by decide
theorem test_decode_set_all : decodeCommand 0b00000000000000000000000000000010#32 = .setAll := by decide
theorem test_decode_set_brightness : decodeCommand 0b00000000000000000000000000000011#32 = .setBrightness := by decide
theorem test_decode_show : decodeCommand 0b00000000000000000000000000000100#32 = .showFrame := by decide
theorem test_decode_get_pixel : decodeCommand 0b00000000000000000000000000000101#32 = .getPixel := by decide

/-- R74, and the vectors of section 2.4: the first reserved opcode, the last, SHOW's opcode with a reserved bit, bit 31. -/
theorem test_decode_illegal :
    decodeCommand 0x00000006#32 = .illegal 0x00000006#32 ∧ decodeCommand 0x000000FF#32 = .illegal 0x000000FF#32 ∧
    decodeCommand 0x00000104#32 = .illegal 0x00000104#32 ∧ decodeCommand 0x80000000#32 = .illegal 0x80000000#32 := by
  decide

/-- R53: byte lane 0 holds bits [7:0]. -/
theorem test_lanes_of_a_word : lanesOfWord 0x12345678#32 = [0x78#8, 0x56#8, 0x34#8, 0x12#8] := by decide

/-- R75: three bytes are no command. -/
theorem test_truncated_command_refused : decodeBytes [0x01#8, 0x00#8, 0x00#8] = .error .truncated := by rfl

theorem test_table_word_of_get_pixel : decodeTableWord 32 5 = some .getPixel := by decide

/-- The step after `withFetchWord` runs the command: GET_PIXEL's result of section 2.4. -/
theorem test_fetch_word_runs :
    after (step (State.reset.withFetchWord 32 5)) (fun t => (t.result, t.inputs, t.responses)) =
      some (0#4, [], [.done]) := by decide

/-! ## Commands (spec/95_test_vectors.md section 2.4) -/

/-- R141: NOP clears an earlier result. -/
theorem test_nop_clears_result : after (exec .nop { four with status := 1#32 }) State.result = some 0#4 := by decide

theorem test_set_pixel_last :
    after (exec .setPixel { four with index := 3#32, color := 0x4D302010#32 })
      (fun t => (t.pix, t.result)) =
      some ([Color.black, Color.black, Color.black, ⟨16#8, 32#8, 48#8, 77#8⟩], 0#4) := by decide

theorem test_set_pixel_negative :
    after (exec .setPixel { four with index := 0xFFFFFFFF#32, color := 0xFF#32 }) (fun t => (t.pix, t.result)) =
      some (four.pix, 1#4) := by decide

theorem test_set_all_ignores_index :
    after (exec .setAll { four with index := 9#32, color := 0x000000FF#32 }) (fun t => (t.pix, t.index, t.result)) =
      some (List.replicate 4 ⟨255#8, 0#8, 0#8, 0#8⟩, 9#32, 0#4) := by decide

theorem test_set_brightness_negative_zero :
    after (exec .setBrightness { four with brightIn := 0x8000000000000000#64 }) (fun t => (t.bright, t.result)) =
      some (0x8000000000000000#64, 0#4) := by decide

theorem test_set_brightness_above_one :
    after (exec .setBrightness { four with brightIn := 0x3FF0000000000001#64 }) (fun t => (t.bright, t.result)) =
      some (0x3FF0000000000000#64, 2#4) := by decide

theorem test_show_ok :
    after (exec .showFrame { State.resetOf (build 1 false 1) with waits := [.answer .ok] })
      (fun t => (t.sent, t.result)) =
      some ([⟨bytes [0x00, 0x92, 0x49, 0x24, 0x92, 0x49, 0x24, 0x92, 0x49, 0x24, 0x00], .ok⟩], 0#4) := by decide

theorem test_show_error :
    after (exec .showFrame { State.resetOf (build 1 true 0) with waits := [.answer .err] })
      (fun t => (t.sent, t.result)) =
      some ([⟨bytes [0x92, 0x49, 0x24, 0x92, 0x49, 0x24, 0x92, 0x49, 0x24, 0x92, 0x49, 0x24], .err⟩], 3#4) := by decide

/-- P2, steps 12 and 13. -/
theorem test_get_pixel_unscaled :
    after (exec .getPixel { four with pix := [⟨200#8, 100#8, 50#8, 255#8⟩], bright := 0x3FE0000000000000#64 })
      (fun t => (t.rdcolor, t.result)) = some (0xFF3264C8#32, 0#4) := by decide

theorem test_get_pixel_past_the_end :
    after (exec .getPixel { four with index := 4#32, rdcolor := 7#32 }) (fun t => (t.rdcolor, t.result)) =
      some (7#32, 1#4) := by decide

theorem test_illegal_result : after (exec (.illegal 0x104#32) four) (fun t => (t.result, t.sent)) = some (4#4, []) := by
  decide

/-! ## Color Model (section 2.1) -/

theorem test_clamp : [-300, -1, 0, 1, 128, 255, 256, 1000].map clamp8 = bytes [0, 0, 0, 1, 128, 255, 255, 255] := by
  decide

theorem test_pack : pack 300 (-5) 128 none = 0x008000FF#32 ∧ pack 200 100 50 (some 255) = 0xFF3264C8#32 := by decide

theorem test_bright_valid :
    brightValid 0x0000000000000001#64 = true ∧ brightValid 0x3FF0000000000000#64 = true ∧
    brightValid 0x8000000000000001#64 = false ∧ brightValid 0xBFB999999999999A#64 = false ∧
    brightValid 0x7FF0000000000000#64 = false ∧ brightValid 0x7FF8000000000000#64 = false := by decide

/-- R106: 0.7 of 100, a third of 3, the largest value below 1.0, half of 255; and the exact floors in brackets there. -/
theorem test_scale :
    scale8 .fl64Trunc 100#8 0x3FE6666666666666#64 = 70#8 ∧ scale8 .fl64Trunc 3#8 0x3FD5555555555555#64 = 1#8 ∧
    scale8 .fl64Trunc 255#8 0x3FEFFFFFFFFFFFFF#64 = 254#8 ∧ scale8 .fl64Trunc 255#8 0x3FE0000000000000#64 = 127#8 ∧
    scale8 .exactFloor 100#8 0x3FE6666666666666#64 = 69#8 ∧ scale8 .exactFloor 3#8 0x3FD5555555555555#64 = 0#8 := by
  decide

/-- D12: the product 127.5 to the nearest integer, ties to even; and 0.5 to 0. -/
theorem test_scale_nearest_even :
    scale8 .fl64NearestEven 255#8 0x3FE0000000000000#64 = 128#8 ∧
    scale8 .fl64NearestEven 1#8 0x3FE0000000000000#64 = 0#8 := by decide

theorem test_render_pixel_channels :
    renderPixelChannels (build 1 true 0) ⟨200#8, 100#8, 50#8, 255#8⟩ 0x3FE0000000000000#64 = bytes [50, 100, 25, 127] ∧
    renderPixelChannels (build 1 false 0) ⟨1#8, 2#8, 3#8, 77#8⟩ 0x3FF0000000000000#64 = bytes [2, 1, 3] := by decide

/-! ## Bit Encoder (section 2.2) -/

theorem test_encode_byte_default : encodeByte Config.reference 0xA5#8 = bytes [0xD3, 0x49, 0xA6] := by decide

/-- The widths 2, 4 and 8. -/
theorem test_encode_byte_other_widths :
    encodeByte { Config.reference with width := 2, p0 := 0b10, p1 := 0b11 } 0xA5#8 = bytes [0xEE, 0xBB] ∧
    encodeByte { Config.reference with width := 4, p0 := 0b1000, p1 := 0b1110 } 0xA5#8 =
      bytes [0xE8, 0xE8, 0x8E, 0x8E] ∧
    encodeByte { Config.reference with width := 8, p0 := 0b11000000, p1 := 0b11111000 } 0xA5#8 =
      bytes [0xF8, 0xC0, 0xF8, 0xC0, 0xC0, 0xF8, 0xC0, 0xF8] := by decide

theorem test_decode_byte :
    decodeByte Config.reference (bytes [0xD3, 0x49, 0xA6]) = some 0xA5#8 ∧
    decodeByte Config.reference (bytes [0x92, 0x49, 0x25]) = none ∧
    decodeByte Config.reference (bytes [0xFF, 0xFF, 0xFF]) = none ∧
    decodeByte Config.reference (bytes [0x92, 0x49]) = none := by decide

/-! ## Frame Builder (section 2.3) and the wire -/

theorem test_build_frame : buildFrame [bytes [0x92, 0x49, 0x24]] 2 = bytes [0, 0, 0x92, 0x49, 0x24, 0, 0] := by decide

/-- R184's two informative examples. -/
theorem test_reference_reset_bytes :
    referenceResetBytes 280 6400000 = 224 ∧ referenceResetBytes 280 2400000 = 84 := by decide

/-- R66: bit 7 of byte 0 is first. -/
theorem test_wire_bits_first : wireBits [0x80#8] = true :: List.replicate 7 false := by decide

/-! ## Host bus (section 2.5) -/

/-- `rd FORMAT` and `rd BRIGHT_HI`. -/
theorem test_read_registers :
    readReg four (regAt 0x28) = 0x06040300#32 ∧ readReg (State.resetOf (build 4 true 84)) (regAt 0x28) = 0x06040301#32 ∧
    readReg four (regAt 0x1C) = 0x3FF00000#32 ∧ readReg four (regAt 0xFC) = 0#32 := by decide

/-- A byte write at offset 0x0C, and a 32-bit read at 0x0E. -/
theorem test_bus_errors :
    after (step { four with inputs := [.access ⟨0x0C, 1, .write 5#32⟩] }) (fun t => (t.color, t.status, t.responses)) =
      some (0#32, 0#32, [.busError]) ∧
    after (step { four with inputs := [.access ⟨0x0E, 4, .read⟩] }) State.responses = some [.busError] := by decide

/-- P5, step 4: the stale low half. -/
theorem test_half_written_brightness :
    after (step { four with brightIn := 0x3FB999999999999A#64,
                            inputs := [.access (wordAccess four.cfg 0x14 (.write 0x3FE00000#32))] })
      State.brightIn = some 0x3FE000009999999A#64 := by decide

/-! ## Program text (spec/30_encoding.md R77 to R79; section 3) -/

/-- P3, step 2. -/
theorem test_assemble_set_brightness :
    assemble ["set_brightness 0x3FF8000000000000".toList] =
      some [⟨.w, 0x10, some 0x00000000#32, none⟩, ⟨.w, 0x14, some 0x3FF80000#32, none⟩, ⟨.w, 0x00, some 3#32, none⟩] := by
  decide

/-- P3, steps 6, 13 and 16. -/
theorem test_assemble_lines :
    assemble ["wr INDEX, -1".toList, "wr CMD, 0x4 !ERR ; frame G".toList, "rd STATUS == 0x1".toList] =
      some [⟨.w, 0x08, some 0xFFFFFFFF#32, none⟩, ⟨.w, 0x00, some 4#32, some .err⟩, ⟨.r, 0x04, some 1#32, none⟩] := by
  decide

/-- The table of binary64 patterns at the head of spec/95_test_vectors.md. -/
theorem test_decimal_literals :
    (BrightLiteral.decimal false 1 1).bits64 = 0x3FB999999999999A#64 ∧
    (BrightLiteral.decimal false 7 1).bits64 = 0x3FE6666666666666#64 ∧
    (BrightLiteral.decimal true 1 1).bits64 = 0xBFB999999999999A#64 ∧
    (BrightLiteral.decimal true 0 0).bits64 = 0x8000000000000000#64 ∧
    (BrightLiteral.decimal false 15 1).bits64 = 0x3FF8000000000000#64 := by decide

/-! ## Witnesses: for each statement with hypotheses, states and operands that meet them, clause by clause -/

/-- A machine whose next input is a write of `v` to CMD. -/
def issue (s : State) (v : Word) : State := { s with inputs := [.access (wordAccess s.cfg 0x00 (.write v))] }

/-- A machine whose next inputs are these accesses. -/
def perform (s : State) (l : List Access) : State := { s with inputs := l.map .access }

/-- A machine with a SHOW in flight. -/
def showing (ws : List WaitEvent) : State := { four with inFlight := some four.frame, waits := ws }

theorem four_wellFormed : four.cfg.wellFormed = true := by decide

theorem four_inv : Inv four := ⟨by decide, by decide, by decide, by decide, by decide⟩

theorem takesCommand_issue (v : Word) : TakesCommand (issue four v) v := ⟨rfl, [], rfl⟩

theorem not_takesReset_issue (v : Word) : ¬ TakesReset (issue four v) := by
  rintro ⟨_, rest, h⟩
  simp [issue] at h

theorem witness_DecodingFollowsTheOpcodeMap :
    (0x00000104#32).extractLsb' 8 24 ≠ 0#24 ∧ (0x00000005#32).extractLsb' 8 24 = 0#24 ∧
    (0x00000005#32).extractLsb' 0 8 = 0x05#8 ∧ 6 ≤ ((0x00000006#32).extractLsb' 0 8).toNat ∧
    (0x00000006#32).extractLsb' 8 24 = 0#24 ∧ (0x000000FF#32).extractLsb' 8 24 = 0#24 := by decide

theorem witness_EncodeAndDecodeAgree : (Instr.illegal 0x00000006#32).wellFormed = true := by decide

theorem witness_StepRunsTheDecodedCommand :
    (issue four 0#32).cfg.wellFormed = true ∧ (issue four 0#32).inFlight = none ∧
    (issue four 0#32).inputs = .access (wordAccess four.cfg 0x00 (.write 0#32)) :: [] ∧
    (∃ t, exec (decodeCommand 0x00000000#32) four = .next t ∧ t.inFlight = none) ∧
    (∃ t, exec (decodeCommand 0x00000004#32) four = .next t ∧ t.inFlight ≠ none) ∧
    (∃ r, exec (decodeCommand 0x00000004#32) { four with waits := [.reset] } = .refused r) :=
  ⟨by decide, rfl, rfl, ⟨_, rfl, rfl⟩, ⟨_, rfl, by decide⟩, ⟨_, rfl⟩⟩

theorem witness_NopWritesOkAndNothingElse : four.cfg.wellFormed = true := four_wellFormed

/-- The first and the last pixel; the first index past the end and the last negative one. -/
theorem witness_SetPixelStoresOrReportsRange :
    four.cfg.wellFormed = true ∧ four.pix.length = four.cfg.ledCount ∧
    (0x00000000#32).toInt = ((0 : Nat) : Int) ∧ (0x00000003#32).toInt = ((3 : Nat) : Int) ∧ 3 < four.cfg.ledCount ∧
    (four.cfg.ledCount : Int) ≤ (0x00000004#32).toInt ∧ (0xFFFFFFFF#32).toInt < 0 := by decide

theorem witness_SetAllFillsEveryPixel : four.cfg.wellFormed = true ∧ 3 < four.cfg.ledCount := by decide

/-- 1.0 and the next value above it. -/
theorem witness_SetBrightnessStoresOrRejects :
    four.cfg.wellFormed = true ∧ brightValid 0x3FF0000000000000#64 = true ∧ brightValid 0x3FF0000000000001#64 = false := by
  decide

theorem witness_ShowMakesOneTransaction :
    four.cfg.wellFormed = true ∧ four.inFlight = none ∧ four.waits = [] ∧
    { four with waits := [.answer .ok] }.waits = .answer .ok :: [] ∧
    { four with waits := [.answer .err] }.waits = .answer .err :: [] ∧
    { four with waits := [.pending, .answer .ok] }.waits = .pending :: [.answer .ok] := by decide

theorem witness_GetPixelReadsTheStoredColor :
    four.cfg.wellFormed = true ∧ (0x00000003#32).toInt = ((3 : Nat) : Int) ∧ 3 < four.cfg.ledCount ∧
    (four.cfg.ledCount : Int) ≤ (0x00000004#32).toInt ∧ (0x80000000#32).toInt < 0 := by decide

theorem witness_IllegalWritesItsCodeAndNothingElse : four.cfg.wellFormed = true := four_wellFormed

theorem witness_RangeErrorExactlyOutsideTheStrip :
    four.cfg.wellFormed = true ∧ (Instr.getPixel = .setPixel ∨ Instr.getPixel = .getPixel) := by decide

theorem witness_EachCommandHasItsOwnResultCodes : ∃ t, exec .nop four = .next t ∧ t.inFlight = none := ⟨_, rfl, rfl⟩

/-- A SET_PIXEL out of range, and a SHOW whose Transport answers ERR. -/
theorem witness_ErrorsArePrecise :
    (∃ t, exec .setPixel { four with index := 4#32 } = .next t ∧ t.inFlight = none ∧ t.result ≠ 0#4 ∧ t.result ≠ 3#4) ∧
    (∃ t, exec .showFrame { four with waits := [.answer .err] } = .next t ∧ t.inFlight = none ∧ t.result ≠ 0#4 ∧
      t.result = 3#4) :=
  ⟨⟨_, rfl, by decide, by decide, by decide⟩, ⟨_, rfl, by decide, by decide, by decide⟩⟩

theorem witness_NoCommandReadsStatus : ∃ t, exec .nop four = .next t ∧ four.inFlight = none ∧ t.inFlight = none :=
  ⟨_, rfl, rfl, rfl⟩

theorem witness_UnusedOperandsAreIgnored :
    (∃ t, exec .setAll four = .next t) ∧ (∃ t, exec .nop four = .next t) ∧ (∃ t, exec .showFrame four = .next t) :=
  ⟨⟨_, rfl⟩, ⟨_, rfl⟩, ⟨_, rfl⟩⟩

theorem witness_GetPixelAfterSetPixelReadsColor :
    four.cfg.wellFormed = true ∧ four.pix.length = four.cfg.ledCount ∧ 0 ≤ four.index.toInt ∧
    four.index.toInt < (four.cfg.ledCount : Int) := by decide

theorem witness_BrightnessIsReversible : four.cfg.wellFormed = true ∧ brightValid four.bright = true := by decide

theorem witness_InFlightShowStallsTheBus :
    (showing []).cfg.wellFormed = true ∧ (showing []).inFlight = some four.frame ∧ (showing []).waits = [] ∧
    (showing [.pending]).waits = .pending :: [] ∧ (showing [.answer .err]).waits = .answer .err :: [] := by decide

theorem witness_UnansweredShowHangs : four.cfg.wellFormed = true ∧ four.waits = [] ∧ ∃ t, exec .showFrame four = .next t :=
  ⟨by decide, rfl, _, rfl⟩

theorem witness_ResetDuringShowIsRefused :
    (showing [.reset]).cfg.wellFormed = true ∧ (showing [.reset]).waits = .reset :: [] ∧
    (showing [.reset]).inFlight ≠ none := by decide

/-- A SHOW, and a NOP, which is none. -/
theorem witness_EachShowHandsOverOneFrame :
    (TakesCommand (issue four 0x00000004#32) 0x00000004#32 ∧ ∃ t, step (issue four 0x00000004#32) = .next t) ∧
    (¬ TakesCommand (issue four 0x00000000#32) 0x00000004#32 ∧ ∃ t, step (issue four 0x00000000#32) = .next t) := by
  refine ⟨⟨takesCommand_issue _, _, rfl⟩, ?_, _, rfl⟩
  rintro ⟨_, rest, h⟩
  simp [issue, wordAccess] at h

/-- The last offset of the window. -/
theorem witness_ReadsReturnTheRegisterMap :
    four.cfg.wellFormed = true ∧ four.inFlight = none ∧ four.status.extractLsb' 4 28 = 0#28 ∧ 0xFC < 256 ∧
    0xFC % 4 = 0 ∧
    (perform four [wordAccess four.cfg 0xFC .read]).inputs = .access (wordAccess four.cfg 0xFC .read) :: [] := by decide

/-- CMD, an operand register, and the first read-only and the last reserved offset. -/
theorem witness_WritesStoreOrAreIgnored :
    (∃ t, exec (decodeCommand 0x00000000#32) four = .next t ∧ t.inFlight = none) ∧ four.cfg.wellFormed = true ∧ four.inFlight = none ∧ 0x14 % 4 = 0 ∧ 0x04 % 4 = 0 ∧ 0xFC < 256 ∧ 0xFC % 4 = 0 ∧
    (perform four [wordAccess four.cfg 0x14 (.write 1#32)]).inputs =
      .access (wordAccess four.cfg 0x14 (.write 1#32)) :: [] :=
  ⟨⟨_, rfl, rfl⟩, by decide⟩

/-- A 16-bit access at the window's first offset, and a 32-bit one at its last. -/
theorem witness_BusErrorsChangeNothing :
    four.cfg.wellFormed = true ∧ four.inFlight = none ∧ four.cfg.base ≤ 0 ∧ 255 < four.cfg.base + 256 ∧
    (255 - four.cfg.base) % 4 ≠ 0 ∧ (perform four [⟨0, 2, .read⟩]).inputs = .access ⟨0, 2, .read⟩ :: [] ∧
    (perform four [⟨255, 4, .read⟩]).inputs = .access ⟨255, 4, .read⟩ :: [] := by decide

/-- One past the window, and, in a window at 256, one before it. -/
theorem witness_AddressesOutsideTheWindowFault :
    four.cfg.wellFormed = true ∧ four.inFlight = none ∧ four.cfg.base + 256 ≤ 256 ∧
    ({ four.cfg with base := 256 }).wellFormed = true ∧ 255 < ({ four.cfg with base := 256 }).base ∧
    (perform four [⟨256, 4, .read⟩]).inputs = .access ⟨256, 4, .read⟩ :: [] := by decide

theorem witness_ReadingTwiceGivesTheSame :
    four.cfg.wellFormed = true ∧ four.inFlight = none ∧
    (perform four [⟨4, 4, .read⟩, ⟨4, 4, .read⟩]).inputs = .access ⟨4, 4, .read⟩ :: .access ⟨4, 4, .read⟩ :: [] ∧
    four.cfg.base ≤ 4 ∧ 4 < four.cfg.base + 256 := by decide

theorem witness_OperandWritesAreIdempotent :
    four.cfg.wellFormed = true ∧ four.inFlight = none ∧ (0x14 = 0x08 ∨ 0x14 = 0x0C ∨ 0x14 = 0x10 ∨ 0x14 = 0x14) ∧
    (perform four [wordAccess four.cfg 0x14 (.write 1#32), wordAccess four.cfg 0x14 (.write 1#32)]).inputs =
      .access (wordAccess four.cfg 0x14 (.write 1#32)) :: .access (wordAccess four.cfg 0x14 (.write 1#32)) :: [] := by
  decide

theorem witness_BrightInHalvesInEitherOrder :
    four.cfg.wellFormed = true ∧ four.inFlight = none ∧
    (perform four [wordAccess four.cfg 0x10 (.write 1#32), wordAccess four.cfg 0x14 (.write 2#32)]).inputs =
      .access (wordAccess four.cfg 0x10 (.write 1#32)) :: .access (wordAccess four.cfg 0x14 (.write 2#32)) :: [] ∧
    (perform four [wordAccess four.cfg 0x14 (.write 2#32), wordAccess four.cfg 0x10 (.write 1#32)]).inputs =
      .access (wordAccess four.cfg 0x14 (.write 2#32)) :: .access (wordAccess four.cfg 0x10 (.write 1#32)) :: [] := by
  decide

theorem witness_StatusReadsResultAlone :
    four.cfg.wellFormed = true ∧ four.inFlight = none ∧
    (perform four [wordAccess four.cfg 0x04 .read]).inputs = .access (wordAccess four.cfg 0x04 .read) :: [] := by decide

theorem witness_ResetSetsEveryPieceOfState :
    four.cfg.wellFormed = true ∧ four.inFlight = none ∧ { four with inputs := [.reset] }.inputs = .reset :: [] := by decide

theorem witness_ConfigurationsAreWellFormedOrRefused :
    { four with cfg := { four.cfg with ledCount := 0 } }.cfg.wellFormed = false := by decide

theorem witness_ConfigurationNeverChanges : ∃ t, step (issue four 0x00000002#32) = .next t := ⟨_, rfl⟩

theorem witness_IdleBlockKeepsItsState : four.cfg.wellFormed = true ∧ four.inFlight = none ∧ four.inputs = [] := by decide

theorem witness_InvariantsAreKeptByEveryStep :
    Inv (issue four 0x00000002#32) ∧ ∃ t, step (issue four 0x00000002#32) = .next t :=
  ⟨⟨by decide, by decide, by decide, by decide, by decide⟩, _, rfl⟩

theorem witness_InvariantsHoldAfterReset : (build 4 false 1).wellFormed = true := by decide

/-- With a frame in flight, and with a SHOW that puts one there. -/
theorem witness_FrameInFlightStaysCurrent :
    (FrameInFlightIsCurrent (showing [.pending]) ∧ ∃ t, step (showing [.pending]) = .next t) ∧
    (FrameInFlightIsCurrent (issue four 0x00000004#32) ∧ ∃ t, step (issue four 0x00000004#32) = .next t) := by
  refine ⟨⟨?_, _, rfl⟩, ?_, _, rfl⟩
  · intro f h
    exact (Option.some.inj h).symm
  · intro f h
    cases h

/-- A SET_ALL of white, a SET_BRIGHTNESS to 0, and a GET_PIXEL of a pixel that is not black. -/
theorem witness_OnlyTheNamedCommandsWrite :
    ¬ TakesReset (issue four 0x00000002#32) ∧
    after (step (issue { four with color := 0xFF#32 } 0x00000002#32)) (fun t => decide (t.pix ≠ four.pix)) = some true ∧
    after (step (issue four 0x00000003#32)) (fun t => decide (t.bright ≠ four.bright)) = some true ∧
    after (step (issue { four with pix := [⟨1#8, 2#8, 3#8, 4#8⟩] } 0x00000005#32))
      (fun t => decide (t.rdcolor ≠ four.rdcolor)) = some true :=
  ⟨not_takesReset_issue _, by decide, by decide, by decide⟩

theorem witness_OnlyCommandsWriteStatus :
    after (step (issue four 0x00000006#32)) (fun t => decide (t.status ≠ four.status)) = some true := by decide

theorem witness_CommandsKeepTheOperandRegisters : ∃ t, exec .setAll four = .next t := ⟨_, rfl⟩

theorem witness_PixelsAreStoredUnscaled : 3 < four.cfg.ledCount ∧ ∃ t, step (issue four 0x00000002#32) = .next t :=
  ⟨by decide, _, rfl⟩

theorem witness_FrameChangesOnlyBySuccessfulSets :
    after (step (issue { four with color := 0xFF#32 } 0x00000002#32)) (fun t => decide (t.frame ≠ four.frame)) =
      some true := by decide

theorem witness_ClampingBoundsEveryInteger : (-1 : Int) < 0 ∧ (255 : Int) < 256 ∧ (0 : Int) ≤ 255 ∧ (255 : Int) ≤ 255 := by
  decide

/-- The smallest subnormal and 1.0, for the laws that are about a valid brightness. -/
theorem witness_EveryScaleSatisfiesTheLaws :
    brightValid 0x0000000000000001#64 = true ∧ brightValid 0x3FF0000000000000#64 = true := by decide

/-- 1.0, the largest valid brightness, and -0.0. -/
theorem witness_DefaultScaleTruncatesTheNearestProduct :
    brightValid 0x3FF0000000000000#64 = true ∧ brightValid 0x8000000000000000#64 = true := by decide

/-- Two strips that differ in a white component alone. -/
theorem witness_WhiteNeverReachesAnRgbFrame :
    let t : State := { four with pix := [⟨0#8, 0#8, 0#8, 9#8⟩] }
    four.cfg.hasWhite = false ∧ t.cfg = four.cfg ∧ t.bright = four.bright ∧ t.pixel 0 ≠ four.pixel 0 ∧
    ∀ p, p < four.cfg.ledCount → (t.pixel p).red = (four.pixel p).red ∧ (t.pixel p).green = (four.pixel p).green ∧
      (t.pixel p).blue = (four.pixel p).blue := by decide

/-- And a byte list that decodes: 0xA5's, of section 2.2. -/
theorem witness_EncodedBytesRoundTrip :
    Config.reference.wellFormed = true ∧
    decodeByte Config.reference (bytes [0xD3, 0x49, 0xA6]) = some 0xA5#8 := by decide

theorem witness_EncodedBytesCarryThePatternStream : Config.reference.wellFormed = true := by decide

theorem witness_DefaultPatternsClosedForm : DefaultPatterns Config.reference ∧ 7 < 8 := ⟨⟨rfl, rfl, rfl⟩, by decide⟩

/-- `N = 4`, `C = 3`, `W = 3`, `R = 1`: the only leading byte, the first and last pixel byte, the only trailing byte. -/
theorem witness_FrameLayout :
    four.cfg.wellFormed = true ∧ 0 < four.cfg.resetBytes ∧
    0 < four.cfg.ledCount * four.cfg.channels * four.cfg.width ∧
    35 < four.cfg.ledCount * four.cfg.channels * four.cfg.width ∧
    four.cfg.resetBytes + four.cfg.ledCount * four.cfg.channels * four.cfg.width ≤ 37 ∧
    37 < 2 * four.cfg.resetBytes + four.cfg.ledCount * four.cfg.channels * four.cfg.width := by decide

theorem witness_FrameDecodesToTheScaledChannels :
    four.cfg.wellFormed = true ∧ 3 < four.cfg.ledCount ∧ 2 < four.cfg.channels := by decide

/-- The last place at which three wire bits can be looked at: one pixel, 72 bits of pixel data. -/
theorem witness_ResetRunsAreLowAndPixelDataIsNot :
    let s := State.resetOf (build 1 false 0)
    DefaultPatterns s.cfg ∧ 69 + 2 < (wireBits (render s.cfg s.pixel s.bright).flatten).length :=
  ⟨⟨rfl, rfl, rfl⟩, by decide⟩

end Sys2Proof.Tests
end

section
/-! SUPPORT. The configurations of spec/00_scope.md R12: `scale8` satisfies the laws of spec/40_color_model.md R107 for
every `ScaleKind`, and a block with an ill-formed configuration is refused. -/

namespace Sys2Proof.Machine

/-! Rounding `P / 2^sh` to the nearest integer never passes an integer. -/

theorem le_shiftNearestEven {m p sh : Nat} (h : m * 2 ^ sh ≤ p) : m ≤ shiftNearestEven p sh := by
  have hq : m ≤ p >>> sh := by
    rw [Nat.shiftRight_eq_div_pow]
    exact (Nat.le_div_iff_mul_le (Nat.two_pow_pos sh)).2 h
  unfold shiftNearestEven
  dsimp only
  split <;> omega

theorem shiftNearestEven_le {m p sh : Nat} (h : p ≤ m * 2 ^ sh) : shiftNearestEven p sh ≤ m := by
  have hq : p >>> sh ≤ m := by
    rw [Nat.shiftRight_eq_div_pow]
    exact Nat.div_le_of_le_mul (by rwa [Nat.mul_comm])
  have hhalf : 0 < 2 ^ (sh - 1) := Nat.two_pow_pos _
  unfold shiftNearestEven
  dsimp only
  split
  · -- rounding up needs a remainder, which a quotient of `m` does not leave
    have hne : p >>> sh ≠ m := by
      rintro rfl
      rw [← Nat.shiftLeft_eq] at h
      omega
    omega
  · exact hq

/-! Rounding a value `P * 2^E` with `E ≤ 0` to a whole number. -/

/-- `x` is a whole number next to the value `v = P * 2^E`, `E ≤ 0`: every whole number at or above `v` is at or above
`x`, and every one at or below `v` is at or below `x`. -/
structure IsRounding (v : Nat × Int) (x : Nat) : Prop where
  le_of_value_le : ∀ {m : Nat}, v.1 ≤ m * 2 ^ (-v.2).toNat → x ≤ m
  le_of_le_value : ∀ {m : Nat}, m * 2 ^ (-v.2).toNat ≤ v.1 → m ≤ x

theorem truncValue_of_nonpos {v : Nat × Int} (h : v.2 ≤ 0) : truncValue v = v.1 / 2 ^ (-v.2).toNat := by
  unfold truncValue
  split
  · have h0 : v.2 = 0 := by omega
    simp [h0]
  · exact Nat.shiftRight_eq_div_pow _ _

theorem nearestEvenValue_of_nonpos {v : Nat × Int} (h : v.2 ≤ 0) :
    nearestEvenValue v = shiftNearestEven v.1 (-v.2).toNat := by
  unfold nearestEvenValue
  split
  · have h0 : v.2 = 0 := by omega
    simp [h0, shiftNearestEven]
  · rfl

theorem isRounding_truncValue {v : Nat × Int} (h : v.2 ≤ 0) : IsRounding v (truncValue v) := by
  rw [truncValue_of_nonpos h]
  exact ⟨fun hm => Nat.div_le_of_le_mul (by rwa [Nat.mul_comm]),
    (Nat.le_div_iff_mul_le (Nat.two_pow_pos _)).2⟩

theorem isRounding_nearestEvenValue {v : Nat × Int} (h : v.2 ≤ 0) : IsRounding v (nearestEvenValue v) := by
  rw [nearestEvenValue_of_nonpos h]
  exact ⟨shiftNearestEven_le, le_shiftNearestEven⟩

theorem bitLength_le {p n : Nat} (h : p < 2 ^ n) : bitLength p ≤ n := by
  unfold bitLength
  split
  · exact Nat.zero_le n
  · next hp => exact (Nat.log2_lt hp).2 h

/-- Rounding to 53 bits drops no more than the 8 bits by which a byte lengthens a 53-bit significand. -/
theorem round53_cases {v : Nat × Int} (h : v.1 < 2 ^ 61) :
    round53 v = v ∨ ∃ sh : Nat, sh ≤ 8 ∧ round53 v = (shiftNearestEven v.1 sh, v.2 + (sh : Int)) := by
  have hlen := bitLength_le h
  unfold round53
  split
  · exact .inr ⟨bitLength v.1 - 53, by omega, rfl⟩
  · exact .inl rfl

theorem round53_snd_nonpos {v : Nat × Int} (h : v.1 < 2 ^ 61) (hE : v.2 ≤ -8) : (round53 v).2 ≤ 0 := by
  rcases round53_cases h with heq | ⟨sh, hsh, heq⟩ <;> rw [heq]
  · omega
  · dsimp only
    omega

/-- Rounding to 53 bits first gives a rounding of the value itself: the whole numbers are among the values that 53 bits
leave. -/
theorem IsRounding.of_round53 {v : Nat × Int} {x : Nat} (h : v.1 < 2 ^ 61) (hE : v.2 ≤ -8)
    (hx : IsRounding (round53 v) x) : IsRounding v x := by
  rcases round53_cases h with heq | ⟨sh, hsh, heq⟩
  · rwa [heq] at hx
  · rw [heq] at hx
    have hpow (m : Nat) : m * 2 ^ (-v.2).toNat = m * 2 ^ (-(v.2 + (sh : Int))).toNat * 2 ^ sh := by
      rw [Nat.mul_assoc, ← Nat.pow_add]
      congr 2
      omega
    refine ⟨fun {m} hm => hx.le_of_value_le (shiftNearestEven_le ?_),
      fun {m} hm => hx.le_of_le_value (le_shiftNearestEven ?_)⟩
    · rwa [← hpow m]
    · rwa [← hpow m]

/-! A valid brightness is at most 1.0 (spec/40_color_model.md R105), so the product with a channel is at most the
channel. -/

/-- The magnitude of a valid brightness is below 1.0, or is 1.0. -/
theorem fields_of_brightValid {b : Bits64} (h : brightValid b = true) :
    fl64Exponent b < 1023 ∨ (fl64Exponent b = 1023 ∧ fl64Fraction b = 0) := by
  unfold brightValid at h
  unfold fl64Exponent fl64Fraction
  simp only [Bool.or_eq_true, decide_eq_true_eq, beq_iff_eq] at h
  rcases h with hle | rfl
  · simp only [BitVec.extractLsb'_toNat, Nat.shiftRight_eq_div_pow]
    omega
  · decide

theorem fl64Fraction_lt (b : Bits64) : fl64Fraction b < 2 ^ 52 := (b.extractLsb' 0 52).isLt

theorem significand_le_two_pow {M n : Nat} {E : Int} (hM : M ≤ 2 ^ n) (hE : E ≤ -(n : Int)) :
    M ≤ 2 ^ (-E).toNat :=
  le_trans hM (Nat.pow_le_pow_right two_pos (by omega))

/-- The significand `(M, E)` of a valid brightness: `M` has at most 53 bits, and `M * 2^E ≤ 1`. -/
theorem significand_of_brightValid {b : Bits64} (h : brightValid b = true) :
    (fl64Significand b).1 < 2 ^ 53 ∧ (fl64Significand b).2 ≤ -52 ∧
      (fl64Significand b).1 ≤ 2 ^ (-(fl64Significand b).2).toNat := by
  have hfrac := fl64Fraction_lt b
  have hfields := fields_of_brightValid h
  unfold fl64Significand
  split
  · exact ⟨by omega, by omega, significand_le_two_pow hfrac.le (by omega)⟩
  · refine ⟨by omega, by omega, ?_⟩
    rcases fields_of_brightValid h with hlt | ⟨hexp, hzero⟩
    · exact significand_le_two_pow (n := 53) (by omega) (by omega)
    · exact significand_le_two_pow (n := 52) (by omega) (by omega)

theorem exactProduct_fst_lt {b : Bits64} (h : brightValid b = true) (c : Byte) : (exactProduct c b).1 < 2 ^ 61 :=
  calc c.toNat * (fl64Significand b).1
      < 2 ^ 8 * 2 ^ 53 := Nat.mul_lt_mul'' c.isLt (significand_of_brightValid h).1
    _ = 2 ^ 61 := by norm_num

theorem exactProduct_snd_le {b : Bits64} (h : brightValid b = true) (c : Byte) : (exactProduct c b).2 ≤ -52 := by
  obtain ⟨-, hE, -⟩ := significand_of_brightValid h
  exact hE

theorem exactProduct_le_channel {b : Bits64} (h : brightValid b = true) (c : Byte) :
    (exactProduct c b).1 ≤ c.toNat * 2 ^ (-(exactProduct c b).2).toNat := by
  obtain ⟨-, -, hone⟩ := significand_of_brightValid h
  exact Nat.mul_le_mul_left _ hone

theorem exactProduct_one (c : Byte) : exactProduct c 0x3FF0000000000000#64 = (c.toNat * 2 ^ 52, -52) := by
  have h : fl64Significand 0x3FF0000000000000#64 = (2 ^ 52, -52) := by decide
  rw [exactProduct, h]

theorem exactProduct_fst_zero (c : Byte) : (exactProduct c 0x0000000000000000#64).1 = 0 := by
  have h : (fl64Significand 0x0000000000000000#64).1 = 0 := by decide
  rw [exactProduct, h, Nat.mul_zero]

theorem exactProduct_fst_negZero (c : Byte) : (exactProduct c 0x8000000000000000#64).1 = 0 := by
  have h : (fl64Significand 0x8000000000000000#64).1 = 0 := by decide
  rw [exactProduct, h, Nat.mul_zero]

/-! The laws of SCALE (spec/40_color_model.md R107). -/

/-- L4 is L3 at the channel 0. -/
theorem eq_zero_of_toNat_le_zero {v : Byte} (h : v.toNat ≤ (0#8 : Byte).toNat) : v = 0#8 :=
  BitVec.eq_of_toNat_eq (Nat.le_zero.mp h)

/-- A function that rounds the exact product to a whole number next to it satisfies the laws. -/
theorem scaleLaws_of_isRounding {f : Byte → Bits64 → Nat}
    (hf : ∀ c b, brightValid b = true → IsRounding (exactProduct c b) (f c b)) :
    ScaleLaws fun c b => BitVec.ofNat 8 (f c b) := by
  have hle {c : Byte} {b : Bits64} (hb : brightValid b = true) : f c b ≤ c.toNat :=
    (hf c b hb).le_of_value_le (exactProduct_le_channel hb c)
  have hbounded (c : Byte) (b : Bits64) (hb : brightValid b = true) : (BitVec.ofNat 8 (f c b)).toNat ≤ c.toNat := by
    rw [BitVec.toNat_ofNat]
    exact le_trans (Nat.mod_le _ _) (hle hb)
  have hzero {c : Byte} {b : Bits64} (hb : brightValid b = true) (h0 : (exactProduct c b).1 = 0) :
      BitVec.ofNat 8 (f c b) = 0#8 := by
    have hx : f c b ≤ 0 := (hf c b hb).le_of_value_le (by rw [h0]; exact Nat.zero_le _)
    rw [Nat.le_zero.mp hx]
  refine
    { full := fun c => ?_
      zero := fun c => hzero (by decide) (exactProduct_fst_zero c)
      negZero := fun c => hzero (by decide) (exactProduct_fst_negZero c)
      bounded := hbounded
      dark := fun b hb => eq_zero_of_toNat_le_zero (hbounded 0#8 b hb) }
  have hone : brightValid 0x3FF0000000000000#64 = true := by decide
  have hge : c.toNat ≤ f c 0x3FF0000000000000#64 :=
    (hf c _ hone).le_of_le_value (by rw [exactProduct_one]; exact le_rfl)
  rw [le_antisymm (hle hone) hge, BitVec.ofNat_toNat, BitVec.setWidth_eq]

theorem isRounding_fl64Trunc {b : Bits64} (h : brightValid b = true) (c : Byte) :
    IsRounding (exactProduct c b) (truncValue (fl64Mul c b)) := by
  have hP := exactProduct_fst_lt h c
  have hE : (exactProduct c b).2 ≤ -8 := by linarith [exactProduct_snd_le h c]
  exact .of_round53 hP hE (isRounding_truncValue (round53_snd_nonpos hP hE))

theorem isRounding_exactFloor {b : Bits64} (h : brightValid b = true) (c : Byte) :
    IsRounding (exactProduct c b) (truncValue (exactProduct c b)) :=
  isRounding_truncValue (by linarith [exactProduct_snd_le h c])

theorem isRounding_fl64NearestEven {b : Bits64} (h : brightValid b = true) (c : Byte) :
    IsRounding (exactProduct c b) (nearestEvenValue (fl64Mul c b)) := by
  have hP := exactProduct_fst_lt h c
  have hE : (exactProduct c b).2 ≤ -8 := by linarith [exactProduct_snd_le h c]
  exact .of_round53 hP hE (isRounding_nearestEvenValue (round53_snd_nonpos hP hE))

theorem lawfulScale_le (n : Nat) (c : Byte) (b : Bits64) : (lawfulScale n c b).toNat ≤ c.toNat := by
  unfold lawfulScale
  split
  · exact le_rfl
  · split
    · exact Nat.zero_le _
    · split
      · assumption
      · exact le_rfl

/-- A configured `SCALE` of which nothing but the laws is known is held to them. -/
theorem scaleLaws_lawfulScale (n : Nat) : ScaleLaws (lawfulScale n) where
  full c := by simp [lawfulScale]
  zero c := by simp [lawfulScale]
  negZero c := by simp [lawfulScale]
  bounded c b _ := lawfulScale_le n c b
  dark b _ := eq_zero_of_toNat_le_zero (lawfulScale_le n 0#8 b)

/-- The laws hold of the default, of the named alternatives and of any other configured `SCALE`. -/
theorem scaleLaws_scale8 (k : ScaleKind) : ScaleLaws (scale8 k) :=
  match k with
  | .fl64Trunc => scaleLaws_of_isRounding fun c _ h => isRounding_fl64Trunc h c
  | .exactFloor => scaleLaws_of_isRounding fun c _ h => isRounding_exactFloor h c
  | .fl64NearestEven => scaleLaws_of_isRounding fun c _ h => isRounding_fl64NearestEven h c
  | .other n => scaleLaws_lawfulScale n

/-! Which configurations are well formed, and what an ill-formed one answers. -/

/-- The conditions of spec/00_scope.md R12 that are tested. -/
theorem wellFormed_iff (c : Config) : c.wellFormed = true ↔
    (1 ≤ c.ledCount ∧ c.ledCount ≤ 2 ^ 31 - 1) ∧ (2 ≤ c.width ∧ c.width ≤ 8) ∧
    (c.p0 < 2 ^ c.width ∧ c.p1 < 2 ^ c.width ∧ c.p0 ≠ c.p1) ∧ c.resetBytes ≤ 2 ^ 24 := by
  simp only [Config.wellFormed, Bool.and_eq_true, decide_eq_true_eq, and_assoc]

theorem configured_of_illFormed {s : State} (h : s.cfg.wellFormed = false) (o : Host.Outcome State Fault Refusal) :
    configured s o = .refused .illFormedConfig := by simp [configured, h]

theorem exec_of_illFormed {s : State} (h : s.cfg.wellFormed = false) (i : Instr) :
    exec i s = .refused .illFormedConfig := by
  cases i <;> exact configured_of_illFormed h _

/-- Settles O33: the tested conditions, and the laws that every `ScaleKind` satisfies, are those of R12; the guard on
the configuration stands before a step and before every command. -/
theorem configurationsAreWellFormedOrRefused : Obligations.ConfigurationsAreWellFormedOrRefused := by
  unfold Obligations.ConfigurationsAreWellFormedOrRefused
  refine ⟨fun c => ?_, fun s h => ⟨configured_of_illFormed h _, exec_of_illFormed h⟩⟩
  have hscale := scaleLaws_scale8 c.scale
  rw [wellFormed_iff]
  tauto

end Sys2Proof.Machine
end

section
/-! SUPPORT. What a step stores, said once: of the pixels, BRIGHT, RDCOLOR and STATUS, over every step of the machine
(spec/10_state.md R23 to R37). -/

namespace Sys2Proof

/-- Every word is the word of the command it decodes to (spec/30_encoding.md R72, R74). -/
theorem encode_decodeCommand (v : Word) : encode (decodeCommand v) = v := by
  unfold decodeCommand
  split
  · rfl
  · next hrsv =>
    have hrsv : v.toNat / 2 ^ 8 % 2 ^ 24 = 0 := by
      simpa [reservedField, ← BitVec.toNat_inj, Nat.shiftRight_eq_div_pow] using hrsv
    have hopc : (opcodeField v).toNat = v.toNat % 2 ^ 8 := by
      simp [opcodeField]
    split <;> apply BitVec.eq_of_toNat_eq <;> simp only [encode, BitVec.reduceToNat] <;> omega

end Sys2Proof

namespace Sys2Proof.Machine

/-! The stores of the block that the host cannot write directly. -/

/-- The configuration, PIX, BRIGHT and RDCOLOR are the same. -/
def SameStores (s t : State) : Prop := t.cfg = s.cfg ∧ t.pix = s.pix ∧ t.bright = s.bright ∧ t.rdcolor = s.rdcolor

theorem SameStores.rfl {s : State} : SameStores s s := ⟨Eq.refl _, Eq.refl _, Eq.refl _, Eq.refl _⟩

theorem sameStores_finishWrite {s u : State} : SameStores s (finishWrite u) ↔ SameStores s u := by
  simp [SameStores]

/-- What a command that succeeds stores, by command: the one store its rule names (spec/42_strip_commands.md R142 to
R146). -/
inductive Stores (s t : State) : Instr → Prop where
  | setPixel (p : Nat) (h : SameStores (s.setPixel p s.colorOperand) t) : Stores s t .setPixel
  | setAll (h : SameStores (s.fillPixels s.colorOperand) t) : Stores s t .setAll
  | setBrightness (hvalid : brightValid s.brightIn = true) (h : SameStores (s.setBright s.brightIn) t) :
      Stores s t .setBrightness
  | getPixel (p : Nat) (h : SameStores (s.setRdcolor (packColor (s.pixel p))) t) : Stores s t .getPixel

/-- The store is the same, whichever inputs are still to come and whether or not the write is answered yet. -/
theorem stores_finishWrite {s u : State} {i : Instr} {rest : List Input} (h : Stores { s with inputs := rest } u i) :
    Stores s (finishWrite u) i := by
  cases h with
  | setPixel p h => exact .setPixel p (sameStores_finishWrite.mpr h)
  | setAll h => exact .setAll (sameStores_finishWrite.mpr h)
  | setBrightness hvalid h => exact .setBrightness hvalid (sameStores_finishWrite.mpr h)
  | getPixel p h => exact .getPixel p (sameStores_finishWrite.mpr h)

/-- STATUS is as it was, or a result code was written to it. -/
def ResultKeptOrWritten (s t : State) : Prop := t.status = s.status ∨ ∃ r, t.status = (s.setResult r).status

/-- A SHOW stores nothing, and at most reports its answer. -/
theorem issueShow_stores {s t : State} (h : issueShow s = .next t) : SameStores s t ∧ ResultKeptOrWritten s t := by
  rcases issueShow_next h with ⟨-, rfl⟩ | ⟨rest, -, rfl⟩ | ⟨a, rest, -, rfl⟩
  · exact ⟨.rfl, .inl rfl⟩
  · exact ⟨.rfl, .inl rfl⟩
  · exact ⟨.rfl, .inr ⟨answerCode a, rfl⟩⟩

/-- A command stores nothing, or reports 0 and makes the one store its rule names. -/
theorem exec_stores {i : Instr} {s t : State} (h : exec i s = .next t) :
    SameStores s t ∨ (t.result = 0#4 ∧ Stores s t i) := by
  rcases exec_next_cases h with ⟨-, h⟩ | ⟨-, h⟩
  · exact .inl (issueShow_stores h).1
  rcases h with ⟨-, rfl⟩ | ⟨rfl, ⟨p, -, rfl⟩ | rfl⟩ | ⟨rfl, rfl⟩ | ⟨rfl, ⟨hvalid, rfl⟩ | rfl⟩ |
    ⟨rfl, ⟨p, -, rfl⟩ | rfl⟩ | ⟨w, -, rfl⟩
  · exact .inl .rfl
  · exact .inr ⟨result_setResult _ _, .setPixel p .rfl⟩
  · exact .inl .rfl
  · exact .inr ⟨result_setResult _ _, .setAll .rfl⟩
  · exact .inr ⟨result_setResult _ _, .setBrightness hvalid .rfl⟩
  · exact .inl .rfl
  · exact .inr ⟨result_setResult _ _, .getPixel p .rfl⟩
  · exact .inl .rfl
  · exact .inl .rfl

/-- A command writes at most a result code to STATUS. -/
theorem exec_status {i : Instr} {s t : State} (h : exec i s = .next t) : ResultKeptOrWritten s t := by
  rcases exec_next_cases h with ⟨-, h⟩ | ⟨-, h⟩
  · exact (issueShow_stores h).2
  rcases h with ⟨-, rfl⟩ | ⟨-, ⟨p, -, rfl⟩ | rfl⟩ | ⟨-, rfl⟩ | ⟨-, ⟨-, rfl⟩ | rfl⟩ |
    ⟨-, ⟨p, -, rfl⟩ | rfl⟩ | ⟨w, -, rfl⟩ <;> exact .inr ⟨_, rfl⟩

/-- What a step stores: reset's values; nothing; or, by a CMD write that reports 0, what its command names. -/
theorem step_stores {s t : State} (h : step s = .next t) :
    (TakesReset s ∧ SameStores s.resetBlock t) ∨ SameStores s t ∨
    (t.result = 0#4 ∧ ∃ i, TakesCommand s (encode i) ∧ Stores s t i) := by
  obtain ⟨-, h⟩ := step_cases h
  rcases h with ⟨f, -, h⟩ | ⟨-, -, rfl⟩ | ⟨rest, hf, hi, rfl⟩ | ⟨a, rest, r, -, -, -, i, c, b, rfl⟩ |
    ⟨v, rest, u, hf, hi, hu, rfl⟩
  · rcases h with ⟨-, rfl⟩ | ⟨r, -, rfl⟩ | ⟨a, r, -, rfl⟩ <;> exact .inr (.inl .rfl)
  · exact .inr (.inl .rfl)
  · exact .inl ⟨⟨hf, rest, hi⟩, .rfl⟩
  · exact .inr (.inl .rfl)
  · rcases exec_stores hu with hsame | ⟨hresult, hstores⟩
    · exact .inr (.inl (sameStores_finishWrite.mpr hsame))
    · refine .inr (.inr ⟨by rwa [finishWrite_result], _, ?_, stores_finishWrite hstores⟩)
      rw [encode_decodeCommand]
      exact ⟨hf, rest, hi⟩

/-- What a step writes to STATUS: nothing; reset's value; or a result code, by a CMD write or the answer to a SHOW. -/
theorem step_status {s t : State} (h : step s = .next t) :
    t.status = s.status ∨ (TakesReset s ∧ t.status = 0#32) ∨
    (((∃ v, TakesCommand s v) ∨ s.inFlight ≠ none) ∧ ResultKeptOrWritten s t) := by
  obtain ⟨-, h⟩ := step_cases h
  rcases h with ⟨f, hf, h⟩ | ⟨-, -, rfl⟩ | ⟨rest, hf, hi, rfl⟩ | ⟨a, rest, r, -, -, -, i, c, b, rfl⟩ |
    ⟨v, rest, u, hf, hi, hu, rfl⟩
  · rcases h with ⟨-, rfl⟩ | ⟨r, -, rfl⟩ | ⟨a, r, -, rfl⟩
    · exact .inl rfl
    · exact .inl rfl
    · exact .inr (.inr ⟨.inr (by simp [hf]), .inr ⟨answerCode a, rfl⟩⟩)
  · exact .inl rfl
  · exact .inr (.inl ⟨⟨hf, rest, hi⟩, rfl⟩)
  · exact .inl rfl
  · refine .inr (.inr ⟨.inl ⟨v, hf, rest, hi⟩, ?_⟩)
    unfold ResultKeptOrWritten
    rw [finishWrite_status]
    exact (exec_status hu : ResultKeptOrWritten { s with inputs := rest } u)

end Sys2Proof.Machine
end

section
/-! SUPPORT. The invariants of spec/10_state.md R37, and which steps write STATUS, PIX, BRIGHT and RDCOLOR (R23, R24, R26,
R30, R31). -/

namespace Sys2Proof.Machine

theorem ResultCode.code_le (r : ResultCode) : r.code.toNat ≤ 4 := by cases r <;> decide

/-- RESULT and the reserved bits are fields of STATUS: an equal STATUS has equal ones. -/
theorem result_congr {s t : State} (h : t.status = s.status) : t.result = s.result := by
  rw [State.result, h, State.result]

/-- Every result code is at most 4, and the reserved bits are not written with it. -/
theorem ResultKeptOrWritten.inv {s t : State} (h : ResultKeptOrWritten s t) (hresult : s.result.toNat ≤ 4)
    (hreserved : s.status.extractLsb' 4 28 = 0#28) : t.result.toNat ≤ 4 ∧ t.status.extractLsb' 4 28 = 0#28 := by
  rcases h with hkept | ⟨r, hwritten⟩
  · rw [result_congr hkept, hkept]
    exact ⟨hresult, hreserved⟩
  · rw [result_congr hwritten, hwritten, result_setResult, reserved_setResult]
    exact ⟨r.code_le, hreserved⟩

/-- The invariants hold of STATUS as reset leaves it, and every other step keeps or writes RESULT alone. -/
theorem step_keeps_status_inv {s t : State} (hresult : s.result.toNat ≤ 4) (hreserved : s.status.extractLsb' 4 28 = 0#28)
    (h : step s = .next t) : t.result.toNat ≤ 4 ∧ t.status.extractLsb' 4 28 = 0#28 := by
  rcases step_status h with hkept | ⟨-, hzero⟩ | ⟨-, hresultOnly⟩
  · exact ResultKeptOrWritten.inv (.inl hkept) hresult hreserved
  · rw [State.result, hzero]
    decide
  · exact hresultOnly.inv hresult hreserved

theorem brightValid_one : brightValid 0x3FF0000000000000#64 = true := by decide

/-- The invariants of the configuration, PIX and BRIGHT pass to a state that stores the same. -/
theorem SameStores.inv {c : Config} {s t : State} (h : SameStores s t) (hcfg : s.cfg = c)
    (hpixels : s.pix.length = c.ledCount) (hbright : brightValid s.bright = true) :
    t.cfg = c ∧ t.pix.length = c.ledCount ∧ brightValid t.bright = true := by
  obtain ⟨hc, hp, hb, -⟩ := h
  rw [hc, hp, hb]
  exact ⟨hcfg, hpixels, hbright⟩

/-- A step keeps the configuration, as many pixels as it has, and a valid brightness. -/
theorem step_keeps_stores_inv {s t : State} (hpixels : s.pix.length = s.cfg.ledCount)
    (hbright : brightValid s.bright = true) (h : step s = .next t) :
    t.cfg = s.cfg ∧ t.pix.length = s.cfg.ledCount ∧ brightValid t.bright = true := by
  rcases step_stores h with ⟨-, hreset⟩ | hsame | ⟨-, i, -, hstores⟩
  · exact hreset.inv rfl List.length_replicate brightValid_one
  · exact hsame.inv rfl hpixels hbright
  cases hstores with
  | setPixel p h => exact h.inv rfl (List.length_set.trans hpixels) hbright
  | setAll h => exact h.inv rfl List.length_replicate hbright
  | setBrightness hvalid h => exact h.inv rfl hpixels hvalid
  | getPixel p h => exact h.inv rfl hpixels hbright

/-- Settles O36: what a step stores keeps the invariants of PIX and BRIGHT, and what it writes to STATUS keeps those of
STATUS. -/
theorem invariantsAreKeptByEveryStep : Obligations.InvariantsAreKeptByEveryStep := by
  unfold Obligations.InvariantsAreKeptByEveryStep
  intro s t hs h
  obtain ⟨hcfg, hpixels, hbright⟩ := step_keeps_stores_inv hs.pixels hs.bright h
  obtain ⟨hresult, hreserved⟩ := step_keeps_status_inv hs.result hs.reserved h
  exact ⟨hcfg ▸ hs.config, hcfg ▸ hpixels, hbright, hresult, hreserved⟩

/-- Settles O37: reset's values, one by one. -/
theorem invariantsHoldAfterReset : Obligations.InvariantsHoldAfterReset := by
  unfold Obligations.InvariantsHoldAfterReset
  intro c hc
  exact
    { config := hc
      pixels := List.length_replicate
      bright := brightValid_one
      result := by rw [State.result, State.resetOf_status]; decide
      reserved := by rw [State.resetOf_status]; decide }

/-- Settles O40: of the steps that write STATUS, `step_status` says which they are. -/
theorem onlyCommandsWriteStatus : Obligations.OnlyCommandsWriteStatus := by
  unfold Obligations.OnlyCommandsWriteStatus
  intro s t h hne
  rcases step_status h with hkept | ⟨hreset, -⟩ | ⟨hcommand, -⟩
  · exact absurd hkept hne
  · exact .inl hreset
  · exact .inr hcommand

/-- Settles O39: a step that is no reset stores nothing, or what its command names; each store but the one a command
makes is as it was. -/
theorem onlyTheNamedCommandsWrite : Obligations.OnlyTheNamedCommandsWrite := by
  unfold Obligations.OnlyTheNamedCommandsWrite
  intro s t h hreset
  rcases step_stores h with ⟨hr, -⟩ | ⟨-, hpix, hb, hrd⟩ | ⟨hresult, i, hcommand, hstores⟩
  · exact absurd hr hreset
  · exact ⟨fun hne => absurd hpix hne, fun hne => absurd hb hne, fun hne => absurd hrd hne⟩
  cases hstores with
  | setPixel p h =>
    obtain ⟨-, -, hb, hrd⟩ := h
    exact ⟨fun _ => ⟨.inl hcommand, hresult⟩, fun hne => absurd hb hne, fun hne => absurd hrd hne⟩
  | setAll h =>
    obtain ⟨-, -, hb, hrd⟩ := h
    exact ⟨fun _ => ⟨.inr hcommand, hresult⟩, fun hne => absurd hb hne, fun hne => absurd hrd hne⟩
  | setBrightness hvalid h =>
    obtain ⟨-, hpix, hb, hrd⟩ := h
    exact ⟨fun hne => absurd hpix hne, fun _ => ⟨hcommand, hresult, hb, hb ▸ hvalid⟩, fun hne => absurd hrd hne⟩
  | getPixel p h =>
    obtain ⟨-, hpix, hb, -⟩ := h
    exact ⟨fun hne => absurd hpix hne, fun hne => absurd hb hne, fun _ => ⟨hcommand, hresult⟩⟩

/-! One pixel. -/

theorem pixel_congr {s t : State} (h : t.pix = s.pix) (p : Nat) : t.pixel p = s.pixel p := by
  rw [State.pixel, h, State.pixel]

/-- A store to one pixel leaves each pixel as it was or holding the color stored; past the end of the list it is lost. -/
theorem pixel_setPixel_cases (s : State) (q : Nat) (c : Color) (p : Nat) :
    (s.setPixel q c).pixel p = s.pixel p ∨ (s.setPixel q c).pixel p = c := by
  by_cases hpq : p = q
  · subst hpq
    by_cases hlen : p < s.pix.length
    · exact .inr (pixel_setPixel_same c hlen)
    · exact .inl (pixel_congr (List.set_eq_of_length_le (not_lt.mp hlen)) p)
  · exact .inl (pixel_setPixel_other c hpq)

theorem pixel_resetBlock {s : State} {p : Nat} (h : p < s.cfg.ledCount) : s.resetBlock.pixel p = Color.black :=
  pixel_fillPixels (s := s) Color.black h

/-- Settles O42: a step stores reset's pixels, none, or those its command names, and both commands that write PIX store
COLOR as it stands. -/
theorem pixelsAreStoredUnscaled : Obligations.PixelsAreStoredUnscaled := by
  unfold Obligations.PixelsAreStoredUnscaled
  intro s t p h hp
  rcases step_stores h with ⟨hreset, -, hpix, -⟩ | ⟨-, hpix, -⟩ | ⟨-, i, -, hstores⟩
  · exact .inr (.inr ⟨hreset, (pixel_congr hpix p).trans (pixel_resetBlock hp)⟩)
  · exact .inl (pixel_congr hpix p)
  cases hstores with
  | setPixel q h =>
    obtain ⟨-, hpix, -⟩ := h
    rw [pixel_congr hpix p]
    exact (pixel_setPixel_cases s q _ p).imp_right .inl
  | setAll h =>
    obtain ⟨-, hpix, -⟩ := h
    rw [pixel_congr hpix p]
    exact .inr (.inl (pixel_fillPixels _ hp))
  | setBrightness hvalid h =>
    obtain ⟨-, hpix, -⟩ := h
    exact .inl (pixel_congr hpix p)
  | getPixel q h =>
    obtain ⟨-, hpix, -⟩ := h
    exact .inl (pixel_congr hpix p)

end Sys2Proof.Machine
end

section
/-! SUPPORT. One 32-bit access of the host at an aligned offset of the window, and a run of several (spec/20_memory.md
R50 to R60). -/

namespace Sys2Proof.Machine

/-- A run takes its first step, if that gives a next state, and goes on from there. -/
theorem run_succ {M : Host.Core} {k : Nat} {s t : M.State} (h : M.step s = .next t) : M.run (k + 1) s = M.run k t := by
  rw [Host.Core.run, h]

theorem run_two {s t u : State} (hst : step s = .next t) (htu : step t = .next u) : core.run 2 s = .next u :=
  (run_succ (M := core) hst).trans (run_succ (M := core) htu)

theorem windowOffset_base_add {c : Config} {o : Nat} (h : o < 256) : windowOffset c (c.base + o) = some o := by
  rw [windowOffset, if_pos ⟨by omega, by omega⟩, Nat.add_sub_cancel_left]

theorem step_access {s : State} {a : Access} {rest : List Input} (hw : s.cfg.wellFormed = true)
    (hf : s.inFlight = none) (hi : s.inputs = .access a :: rest) :
    step s = performAccess a { s with inputs := rest } := by
  rw [step, configured_of_wellFormed hw, advance, hf, hi]

theorem performAccess_wordRead {s : State} {o : Nat} (ho : o < 256) (h4 : o % 4 = 0) :
    performAccess (wordAccess s.cfg o .read) s = .next (s.respond (.data (readReg s (regAt o)))) := by
  simp [performAccess, wordAccess, windowOffset_base_add ho, h4]

theorem performAccess_wordWrite {s : State} {o : Nat} {v : Word} (ho : o < 256) (h4 : o % 4 = 0) :
    performAccess (wordAccess s.cfg o (.write v)) s = mapNext finishWrite (writeReg s v (regAt o)) := by
  simp [performAccess, wordAccess, windowOffset_base_add ho, h4]

/-- A step that reads a register answers its value, and the access is no longer to come. -/
theorem step_wordRead {s : State} {o : Nat} {rest : List Input} (hw : s.cfg.wellFormed = true)
    (hf : s.inFlight = none) (ho : o < 256) (h4 : o % 4 = 0)
    (hi : s.inputs = .access (wordAccess s.cfg o .read) :: rest) :
    step s = .next (State.respond { s with inputs := rest } (.data (readReg s (regAt o)))) := by
  rw [step_access hw hf hi]
  exact performAccess_wordRead (s := { s with inputs := rest }) ho h4

/-- A step that writes a register is the write, then its answer. -/
theorem step_wordWrite {s : State} {o : Nat} {v : Word} {rest : List Input} (hw : s.cfg.wellFormed = true)
    (hf : s.inFlight = none) (ho : o < 256) (h4 : o % 4 = 0)
    (hi : s.inputs = .access (wordAccess s.cfg o (.write v)) :: rest) :
    step s = mapNext finishWrite (writeReg { s with inputs := rest } v (regAt o)) := by
  rw [step_access hw hf hi]
  exact performAccess_wordWrite (s := { s with inputs := rest }) ho h4

/-- A write is answered at once where no SHOW is in flight. -/
theorem finishWrite_of_idle {s : State} (h : s.inFlight = none) : finishWrite s = s.respond .done := by
  simp [finishWrite, h]

/-! The halves of a 64-bit register (spec/20_memory.md R54). -/

@[simp] theorem lowHalf_joinHalves (hi lo : Word) : lowHalf (joinHalves hi lo) = lo :=
  BitVec.extractLsb'_append_eq_right

@[simp] theorem highHalf_joinHalves (hi lo : Word) : highHalf (joinHalves hi lo) = hi :=
  BitVec.extractLsb'_append_eq_left

theorem toNat_joinHalves (hi lo : Word) : (joinHalves hi lo).toNat = hi.toNat * 2 ^ 32 + lo.toNat := by
  rw [joinHalves, BitVec.toNat_append, ← Nat.shiftLeft_add_eq_or_of_lt lo.isLt, Nat.shiftLeft_eq]

/-- A write of the low half of BRIGHT_IN leaves its high half and everything else. -/
theorem step_write_brightInLo {s : State} {lo : Word} {rest : List Input} (hw : s.cfg.wellFormed = true)
    (hf : s.inFlight = none) (hi : s.inputs = .access (wordAccess s.cfg 0x10 (.write lo)) :: rest) :
    step s = .next { s with inputs := rest, responses := s.responses ++ [.done],
                            brightIn := joinHalves (highHalf s.brightIn) lo } := by
  rw [step_wordWrite hw hf (by decide) (by decide) hi]
  exact congrArg Host.Outcome.next (finishWrite_of_idle hf)

/-- A write of the high half of BRIGHT_IN leaves its low half and everything else. -/
theorem step_write_brightInHi {s : State} {hi : Word} {rest : List Input} (hw : s.cfg.wellFormed = true)
    (hf : s.inFlight = none) (hin : s.inputs = .access (wordAccess s.cfg 0x14 (.write hi)) :: rest) :
    step s = .next { s with inputs := rest, responses := s.responses ++ [.done],
                            brightIn := joinHalves hi (lowHalf s.brightIn) } := by
  rw [step_wordWrite hw hf (by decide) (by decide) hin]
  exact congrArg Host.Outcome.next (finishWrite_of_idle hf)

/-- Settles O30: the second write keeps the half that the first one stored. -/
theorem brightInHalvesInEitherOrder : Obligations.BrightInHalvesInEitherOrder := by
  unfold Obligations.BrightInHalvesInEitherOrder
  intro s lo hi rest hw hf horder
  refine ⟨{ s with inputs := rest, responses := s.responses ++ [.done, .done], brightIn := joinHalves hi lo },
    ?_, toNat_joinHalves hi lo, rfl⟩
  rcases horder with hin | hin
  · refine (run_two (step_write_brightInLo hw hf hin) (step_write_brightInHi hw hf rfl)).trans ?_
    simp
  · refine (run_two (step_write_brightInHi hw hf hin) (step_write_brightInLo hw hf rfl)).trans ?_
    simp

/-- Bits 3:0 of what a read of STATUS answers are RESULT. -/
theorem result_of_statusWord (s : State) : s.statusWord.extractLsb' 0 4 = s.result := by
  apply BitVec.eq_of_toNat_eq
  simp only [State.statusWord, BitVec.extractLsb'_toNat, BitVec.toNat_setWidth, Nat.shiftRight_zero]
  omega

/-- Bits 31:4 of what a read of STATUS answers are 0, whatever STATUS holds there. -/
theorem reserved_of_statusWord (s : State) : s.statusWord.extractLsb' 4 28 = 0#28 := by
  apply BitVec.eq_of_toNat_eq
  simp only [State.statusWord, BitVec.extractLsb'_toNat, BitVec.toNat_setWidth, Nat.shiftRight_eq_div_pow,
    BitVec.reduceToNat]
  omega

/-- Settles O31: a read of STATUS answers RESULT, extended by zeros to 32 bits. -/
theorem statusReadsResultAlone : Obligations.StatusReadsResultAlone := by
  unfold Obligations.StatusReadsResultAlone
  intro s rest hw hf hi
  exact ⟨s.statusWord, step_wordRead hw hf (by decide) (by decide) hi, result_of_statusWord s, reserved_of_statusWord s⟩

end Sys2Proof.Machine
end

section
/-! SUPPORT. Pixels and frames: what GET_PIXEL reads back, and what of a pixel reaches the frame
(spec/10_state.md R24, R25). -/

namespace Sys2Proof.Machine

/-- Unpacking a word into a color and packing that again are inverse (the converse of `unpackColor_packColor`). -/
theorem packColor_unpackColor (v : Word) : packColor (unpackColor v) = v := wordOfLanes_lanesOfWord v

/-- Settles O18: both commands name the pixel that INDEX names, and COLOR is packed as it was unpacked. -/
theorem getPixelAfterSetPixelReadsColor : Obligations.GetPixelAfterSetPixelReadsColor := by
  unfold Obligations.GetPixelAfterSetPixelReadsColor
  intro s hw hlen hge hlt
  obtain ⟨p, hp⟩ : ∃ p : Nat, s.index.toInt = (p : Int) := Int.eq_ofNat_of_zero_le hge
  have hpN : p < s.cfg.ledCount := by omega
  have hs : s.pixelOperand = some p := pixelOperand_eq_some_iff.mpr ⟨hp, hpN⟩
  let t := (s.setPixel p s.colorOperand).setResult .ok
  have ht : t.pixelOperand = some p := pixelOperand_eq_some_iff.mpr ⟨hp, hpN⟩
  have hstored : t.pixel p = s.colorOperand := pixel_setPixel_same (s := s) s.colorOperand (hlen ▸ hpN)
  refine ⟨t, _, exec_setPixel_some hw hs, exec_getPixel_some hw ht, ?_, result_setResult _ _⟩
  rw [State.setResult_rdcolor, State.setRdcolor_rdcolor, hstored]
  exact packColor_unpackColor s.color

/-- Without white, the channels of a pixel are those of its red, green and blue (spec/40_color_model.md R104). -/
theorem renderPixelChannels_congr_rgb {cfg : Config} {c d : Color} {b : Bits64} (hwhite : cfg.hasWhite = false)
    (hred : d.red = c.red) (hgreen : d.green = c.green) (hblue : d.blue = c.blue) :
    renderPixelChannels cfg d b = renderPixelChannels cfg c b := by
  simp [renderPixelChannels, wireOrderChannels, scaled, hwhite, hred, hgreen, hblue]

/-- Settles O51: pixel by pixel, the channels that are rendered are equal. -/
theorem whiteNeverReachesAnRgbFrame : Obligations.WhiteNeverReachesAnRgbFrame := by
  unfold Obligations.WhiteNeverReachesAnRgbFrame
  intro s t hwhite hcfg hbright hrgb
  have hrender : render s.cfg t.pixel s.bright = render s.cfg s.pixel s.bright := by
    refine List.map_congr_left fun p hp => ?_
    obtain ⟨hred, hgreen, hblue⟩ := hrgb p (List.mem_range.mp hp)
    rw [renderPixelChannels_congr_rgb hwhite hred hgreen hblue]
  rw [State.frame, hcfg, hbright, hrender, State.frame]

end Sys2Proof.Machine
end

section
/-! SUPPORT. A command run on two states that differ in STATUS alone (spec/10_state.md R35). -/

namespace Sys2Proof.Machine

/-! A SHOW, by what the Transport does next. -/

theorem issueShow_of_silent {s : State} (h : s.waits = []) :
    issueShow s = .next { s with inFlight := some s.frame } := by
  simp [issueShow, awaitAnswer, h]

theorem issueShow_of_pending {s : State} {rest : List WaitEvent} (h : s.waits = .pending :: rest) :
    issueShow s = .next { s with inFlight := some s.frame, waits := rest } := by
  simp [issueShow, awaitAnswer, h]

theorem issueShow_of_answer {s : State} {a : Answer} {rest : List WaitEvent} (h : s.waits = .answer a :: rest) :
    issueShow s = .next (State.completeShow { s with waits := rest } s.frame a) := by
  simp only [issueShow, awaitAnswer, h]
  rfl

/-- The second run of a command, from the same state with STATUS `x`, gives a next state equal to `t` but for STATUS, and
with the same RESULT if the command is complete. -/
def AlikeWithStatus (i : Instr) (s t : State) (x : Word) : Prop :=
  ∃ u, exec i { s with status := x } = .next u ∧ t = { u with status := t.status } ∧
    (s.inFlight = none → t.inFlight = none → u.result = t.result)

/-- Where both runs write the same code to states equal but for STATUS, the next states are equal but for STATUS again,
with the same RESULT. -/
theorem alikeWithStatus_of_setResult {i : Instr} {s t a b : State} {x : Word} {r : ResultCode}
    (ha : exec i s = .next (a.setResult r)) (hb : exec i { s with status := x } = .next (b.setResult r))
    (hab : a = { b with status := a.status }) (h : exec i s = .next t) : AlikeWithStatus i s t x := by
  cases ha.symm.trans h
  refine ⟨_, hb, ?_, fun _ _ => by rw [result_setResult, result_setResult]⟩
  rw [hab]
  rfl

/-- A SHOW does not read STATUS. Its RESULT is not yet written while the Transport has not answered. -/
theorem alikeWithStatus_showFrame {s t : State} (x : Word) (hw : s.cfg.wellFormed = true)
    (h : exec .showFrame s = .next t) : AlikeWithStatus .showFrame s t x := by
  have hs := exec_showFrame hw
  have hx : exec .showFrame { s with status := x } = issueShow { s with status := x } := exec_showFrame hw
  rcases issueShow_next (hs.symm.trans h) with ⟨hwaits, rfl⟩ | ⟨rest, hwaits, rfl⟩ | ⟨a, rest, hwaits, -⟩
  · exact ⟨_, hx.trans (issueShow_of_silent hwaits), rfl, fun _ hf => nomatch hf⟩
  · exact ⟨_, hx.trans (issueShow_of_pending hwaits), rfl, fun _ hf => nomatch hf⟩
  · exact alikeWithStatus_of_setResult (hs.trans (issueShow_of_answer hwaits)) (hx.trans (issueShow_of_answer hwaits))
      rfl h

/-- Settles O16: what a command stores and the code it writes are chosen by its operands, which STATUS is none of. -/
theorem noCommandReadsStatus : Obligations.NoCommandReadsStatus := by
  unfold Obligations.NoCommandReadsStatus
  intro i s t x h
  change AlikeWithStatus i s t x
  have hw := wellFormed_of_exec_next h
  have hx : { s with status := x }.cfg.wellFormed = true := hw
  cases i with
  | nop => exact alikeWithStatus_of_setResult (exec_nop hw) (exec_nop hx) rfl h
  | setPixel =>
    cases hp : s.pixelOperand with
    | none => exact alikeWithStatus_of_setResult (exec_setPixel_none hw hp) (exec_setPixel_none hx hp) rfl h
    | some p => exact alikeWithStatus_of_setResult (exec_setPixel_some hw hp) (exec_setPixel_some hx hp) rfl h
  | setAll => exact alikeWithStatus_of_setResult (exec_setAll hw) (exec_setAll hx) rfl h
  | setBrightness =>
    cases hb : brightValid s.brightIn with
    | false =>
      exact alikeWithStatus_of_setResult (exec_setBrightness_invalid hw hb) (exec_setBrightness_invalid hx hb) rfl h
    | true => exact alikeWithStatus_of_setResult (exec_setBrightness_valid hw hb) (exec_setBrightness_valid hx hb) rfl h
  | showFrame => exact alikeWithStatus_showFrame x hw h
  | getPixel =>
    cases hp : s.pixelOperand with
    | none => exact alikeWithStatus_of_setResult (exec_getPixel_none hw hp) (exec_getPixel_none hx hp) rfl h
    | some p => exact alikeWithStatus_of_setResult (exec_getPixel_some hw hp) (exec_getPixel_some hx hp) rfl h
  | illegal w => exact alikeWithStatus_of_setResult (exec_illegal w hw) (exec_illegal w hx) rfl h

end Sys2Proof.Machine
end

section
/-! SUPPORT. The host bus at every access: the register map of a read and of a write, bus errors, and addresses outside
the window (spec/20_memory.md R50 to R60). -/

namespace Sys2Proof.Machine

/-! Reads (spec/20_memory.md R56). -/

/-- Where `STATUS[31:4]` is 0, a read of STATUS answers the whole word. -/
theorem statusWord_eq_status {s : State} (h : s.status.extractLsb' 4 28 = 0#28) : s.statusWord = s.status := by
  have hreserved := congrArg BitVec.toNat h
  simp only [BitVec.extractLsb'_toNat, Nat.shiftRight_eq_div_pow, BitVec.reduceToNat] at hreserved
  apply BitVec.eq_of_toNat_eq
  simp only [State.statusWord, State.result, BitVec.toNat_setWidth, BitVec.extractLsb'_toNat, Nat.shiftRight_zero]
  omega

/-- Cutting a number to a word keeps its shift to the left. -/
theorem ofNat_shiftLeft (w n k : Nat) : BitVec.ofNat w (n <<< k) = BitVec.ofNat w n <<< k := by
  apply BitVec.eq_of_toNat_eq
  simp only [BitVec.toNat_ofNat, BitVec.toNat_shiftLeft, Nat.shiftLeft_eq, Nat.mod_mul_mod]

/-- FORMAT, its fields joined as numbers before they are cut to a word. -/
theorem formatWord_eq (c : Config) :
    formatWord c =
      BitVec.ofNat 32 (c.p1 <<< 24 ||| c.p0 <<< 16 ||| c.width <<< 8 ||| (if c.hasWhite then 1 else 0)) := by
  unfold formatWord
  cases c.hasWhite <;> simp [ofNat_shiftLeft]

/-- The register map of a read, register by register: STATUS and FORMAT are the two that are not stored as they read. -/
theorem readReg_regAt {s : State} (h : s.status.extractLsb' 4 28 = 0#28) (o : Nat) :
    readReg s (regAt o) = readValue s o := by
  unfold regAt
  split
  case h_2 => -- STATUS
    exact statusWord_eq_status h
  case h_11 => -- FORMAT
    exact formatWord_eq s.cfg
  case h_13 => -- reserved: none of the eleven offsets that answer a value
    rw [readValue]
    iterate 11 rw [if_neg ‹_›]
    rfl
  all_goals rfl

/-- Settles O24: the step answers what the register map holds at the offset. -/
theorem readsReturnTheRegisterMap : Obligations.ReadsReturnTheRegisterMap := by
  unfold Obligations.ReadsReturnTheRegisterMap
  intro s o rest hw hf hreserved ho h4 hi
  rw [step_wordRead hw hf ho h4 hi, readReg_regAt hreserved]
  rfl

/-! Writes (spec/20_memory.md R57). -/

/-- A write that leaves no SHOW in flight is answered by the same step. -/
theorem step_write_of_completes {s t : State} {o : Nat} {v : Word} {rest : List Input} (hw : s.cfg.wellFormed = true)
    (hf : s.inFlight = none) (ho : o < 256) (h4 : o % 4 = 0)
    (hi : s.inputs = .access (wordAccess s.cfg o (.write v)) :: rest)
    (hwrite : writeReg { s with inputs := rest } v (regAt o) = .next t) (ht : t.inFlight = none) :
    step s = .next (t.respond .done) := by
  rw [step_wordWrite hw hf ho h4 hi, hwrite, mapNext, finishWrite_of_idle ht]

theorem step_write_index {s : State} {v : Word} {rest : List Input} (hw : s.cfg.wellFormed = true)
    (hf : s.inFlight = none) (hi : s.inputs = .access (wordAccess s.cfg 0x08 (.write v)) :: rest) :
    step s = .next { s with inputs := rest, responses := s.responses ++ [.done], index := v } :=
  step_write_of_completes hw hf (by decide) (by decide) hi rfl hf

theorem step_write_color {s : State} {v : Word} {rest : List Input} (hw : s.cfg.wellFormed = true)
    (hf : s.inFlight = none) (hi : s.inputs = .access (wordAccess s.cfg 0x0C (.write v)) :: rest) :
    step s = .next { s with inputs := rest, responses := s.responses ++ [.done], color := v } :=
  step_write_of_completes hw hf (by decide) (by decide) hi rfl hf

/-- Away from CMD and the operand registers a write stores nothing: the register is read-only, or reserved. -/
theorem writeReg_regAt_of_ignored {o : Nat} (s : State) (v : Word) (hcmd : o ≠ 0x00) (hindex : o ≠ 0x08)
    (hcolor : o ≠ 0x0C) (hlo : o ≠ 0x10) (hhi : o ≠ 0x14) : writeReg s v (regAt o) = .next s := by
  unfold regAt
  split
  case h_1 => exact absurd rfl hcmd
  case h_3 => exact absurd rfl hindex
  case h_4 => exact absurd rfl hcolor
  case h_5 => exact absurd rfl hlo
  case h_6 => exact absurd rfl hhi
  all_goals rfl

/-- Settles O25: offset by offset, what the write stores; it completes, and so is answered. -/
theorem writesStoreOrAreIgnored : Obligations.WritesStoreOrAreIgnored := by
  unfold Obligations.WritesStoreOrAreIgnored
  intro s o v rest hw hf ho h4 hi
  refine ⟨?_, ?_, ?_, ?_, ?_, fun hcmd hindex hcolor hlo hhi => ?_⟩
  · rintro rfl t hexec ht
    exact step_write_of_completes hw hf ho h4 hi hexec ht
  · rintro rfl
    exact step_write_index hw hf hi
  · rintro rfl
    exact step_write_color hw hf hi
  · rintro rfl
    exact step_write_brightInLo hw hf hi
  · rintro rfl
    exact step_write_brightInHi hw hf hi
  · exact step_write_of_completes hw hf ho h4 hi (writeReg_regAt_of_ignored _ v hcmd hindex hcolor hlo hhi) hf

theorem run_one {s t : State} (h : step s = .next t) : core.run 1 s = .next t := run_succ (M := core) h

/-- Settles O29: the second write stores what the first one did, over the half that the first one left. -/
theorem operandWritesAreIdempotent : Obligations.OperandWritesAreIdempotent := by
  unfold Obligations.OperandWritesAreIdempotent
  intro s o v rest hw hf ho hi
  rcases ho with rfl | rfl | rfl | rfl
  · exact ⟨_, _, run_one (step_write_index hw hf hi),
      run_two (step_write_index hw hf hi) (step_write_index hw hf rfl), by rw [List.append_assoc]; rfl⟩
  · exact ⟨_, _, run_one (step_write_color hw hf hi),
      run_two (step_write_color hw hf hi) (step_write_color hw hf rfl), by rw [List.append_assoc]; rfl⟩
  · exact ⟨_, _, run_one (step_write_brightInLo hw hf hi),
      run_two (step_write_brightInLo hw hf hi) (step_write_brightInLo hw hf rfl),
      by rw [highHalf_joinHalves, List.append_assoc]; rfl⟩
  · exact ⟨_, _, run_one (step_write_brightInHi hw hf hi),
      run_two (step_write_brightInHi hw hf hi) (step_write_brightInHi hw hf rfl),
      by rw [lowHalf_joinHalves, List.append_assoc]; rfl⟩

/-! Bus errors and addresses outside the window (spec/20_memory.md R50 to R52). -/

theorem windowOffset_of_inside {c : Config} {addr : Nat} (hlo : c.base ≤ addr) (hhi : addr < c.base + 256) :
    windowOffset c addr = some (addr - c.base) := if_pos ⟨hlo, hhi⟩

theorem windowOffset_of_outside {c : Config} {addr : Nat} (h : addr < c.base ∨ c.base + 256 ≤ addr) :
    windowOffset c addr = none := if_neg (by omega)

/-- Settles O27: the address has no offset in the window. -/
theorem addressesOutsideTheWindowFault : Obligations.AddressesOutsideTheWindowFault := by
  unfold Obligations.AddressesOutsideTheWindowFault
  intro s a rest hw hf hi hout
  rw [step_access hw hf hi, performAccess, windowOffset_of_outside hout]

/-- An access of another width, or at a misaligned offset, is answered by a bus error alone. -/
theorem step_busError {s : State} {a : Access} {rest : List Input} (hw : s.cfg.wellFormed = true)
    (hf : s.inFlight = none) (hi : s.inputs = .access a :: rest) (hlo : s.cfg.base ≤ a.addr)
    (hhi : a.addr < s.cfg.base + 256) (hbad : a.bytes ≠ 4 ∨ (a.addr - s.cfg.base) % 4 ≠ 0) :
    step s = .next { s with inputs := rest, responses := s.responses ++ [.busError] } := by
  rw [step_access hw hf hi, performAccess, windowOffset_of_inside hlo hhi]
  exact if_pos hbad

/-- Settles O26: the access is in the window, so it is this block's, and the check of width and alignment comes before
any register is named. -/
theorem busErrorsChangeNothing : Obligations.BusErrorsChangeNothing := by
  unfold Obligations.BusErrorsChangeNothing
  intro s a rest hw hf hi hlo hhi hbad
  exact step_busError hw hf hi hlo hhi hbad

/-- An access 32 bits wide, at or above `BASE`, is the one at its offset. -/
theorem eq_wordAccess {a : Access} {c : Config} (hbytes : a.bytes = 4) (hlo : c.base ≤ a.addr) :
    a = wordAccess c (a.addr - c.base) a.direction := by
  rw [wordAccess, Nat.add_sub_cancel' hlo, ← hbytes]

/-- Settles O28: the two reads are bus errors both, or read one register, on which answering the first has no
effect. -/
theorem readingTwiceGivesTheSame : Obligations.ReadingTwiceGivesTheSame := by
  unfold Obligations.ReadingTwiceGivesTheSame
  intro s a rest hw hf hi hread hlo hhi
  by_cases hbad : a.bytes ≠ 4 ∨ (a.addr - s.cfg.base) % 4 ≠ 0
  · refine ⟨.busError,
      (run_two (step_busError hw hf hi hlo hhi hbad) (step_busError hw hf rfl hlo hhi hbad)).trans ?_⟩
    simp
  · obtain ⟨hbytes, h4⟩ : a.bytes = 4 ∧ (a.addr - s.cfg.base) % 4 = 0 := by omega
    have ho : a.addr - s.cfg.base < 256 := by omega
    have ha := eq_wordAccess hbytes hlo
    rw [hread] at ha
    rw [ha] at hi
    refine ⟨.data (readReg s (regAt (a.addr - s.cfg.base))),
      (run_two (step_wordRead hw hf ho h4 hi) (step_wordRead hw hf ho h4 rfl)).trans ?_⟩
    simp only [State.respond, List.append_assoc]
    rfl

end Sys2Proof.Machine
end

section
/-! SUPPORT. A CMD write runs its command, and the Transport port while a SHOW waits for its answer
(spec/20_memory.md R57 to R67). -/

namespace Sys2Proof.Machine

/-! No command faults: it gives a next state, or is refused. -/

theorem configured_ne_fault {s : State} {o : Host.Outcome State Fault Refusal} {r : Fault} (h : o ≠ .fault r) :
    configured s o ≠ .fault r := by
  unfold configured
  split
  · exact h
  · exact nofun

theorem awaitAnswer_ne_fault (s : State) (r : Fault) : awaitAnswer s ≠ .fault r := by
  unfold awaitAnswer
  split <;> exact nofun

theorem exec_ne_fault (i : Instr) (s : State) (r : Fault) : exec i s ≠ .fault r := by
  cases i with
  | showFrame => exact configured_ne_fault (awaitAnswer_ne_fault _ r)
  | nop => exact configured_ne_fault nofun
  | setPixel => exact configured_ne_fault nofun
  | setAll => exact configured_ne_fault nofun
  | setBrightness => exact configured_ne_fault nofun
  | getPixel => exact configured_ne_fault nofun
  | illegal w => exact configured_ne_fault nofun

theorem finishWrite_of_inFlight {s : State} (h : s.inFlight ≠ none) : finishWrite s = s :=
  if_pos (Option.isSome_iff_ne_none.mpr h)

/-- A step that writes CMD is the command, then the answer to the write. -/
theorem step_command {s : State} {v : Word} {rest : List Input} (hw : s.cfg.wellFormed = true)
    (hf : s.inFlight = none) (hi : s.inputs = .access (wordAccess s.cfg 0x00 (.write v)) :: rest) :
    step s = mapNext finishWrite (exec (decodeCommand v) { s with inputs := rest }) :=
  step_wordWrite hw hf (by decide) (by decide) hi

/-- Settles O5: the write is answered exactly where the command leaves no SHOW in flight. -/
theorem stepRunsTheDecodedCommand : Obligations.StepRunsTheDecodedCommand := by
  unfold Obligations.StepRunsTheDecodedCommand
  intro s rest v hw hf hi
  rw [step_command hw hf hi]
  refine ⟨fun t h ht => ?_, fun t h ht => ?_, fun r h => ?_, exec_ne_fault _ _⟩ <;> rw [h, mapNext]
  · rw [finishWrite_of_idle ht, State.respond]
  · rw [finishWrite_of_inFlight ht]

/-! A waiting step, by what the Transport does next. -/

theorem step_inFlight {s : State} {frame : List Byte} (hw : s.cfg.wellFormed = true)
    (hf : s.inFlight = some frame) : step s = mapNext finishWrite (awaitAnswer s) := by
  rw [step, configured_of_wellFormed hw, advance, hf]

theorem step_of_silent {s : State} {frame : List Byte} (hw : s.cfg.wellFormed = true) (hf : s.inFlight = some frame)
    (hwaits : s.waits = []) : step s = .next s := by
  rw [step_inFlight hw hf, awaitAnswer, hf, hwaits]
  simp [mapNext, finishWrite, hf]

theorem step_of_pending {s : State} {frame : List Byte} {rest : List WaitEvent} (hw : s.cfg.wellFormed = true)
    (hf : s.inFlight = some frame) (hwaits : s.waits = .pending :: rest) :
    step s = .next { s with waits := rest } := by
  rw [step_inFlight hw hf, awaitAnswer, hf, hwaits]
  simp [mapNext, finishWrite]

theorem step_of_answer {s : State} {frame : List Byte} {a : Answer} {rest : List WaitEvent}
    (hw : s.cfg.wellFormed = true) (hf : s.inFlight = some frame) (hwaits : s.waits = .answer a :: rest) :
    step s = .next ((State.completeShow { s with waits := rest } frame a).respond .done) := by
  rw [step_inFlight hw hf, awaitAnswer, hf, hwaits]
  simp [mapNext, finishWrite]

theorem code_answerCode (a : Answer) : (answerCode a).code = match a with | .ok => 0#4 | .err => 3#4 := by
  cases a <;> rfl

/-- Settles O20: the host's list is in none of the three steps. -/
theorem inFlightShowStallsTheBus : Obligations.InFlightShowStallsTheBus := by
  unfold Obligations.InFlightShowStallsTheBus
  intro s frame hw hf
  refine ⟨step_of_silent hw hf, fun rest => step_of_pending hw hf, fun a rest hwaits => ?_⟩
  refine ⟨_, step_of_answer hw hf hwaits, ⟨?_, reserved_completeShow _ _ _⟩, rfl⟩
  exact (result_completeShow _ _ _).trans (code_answerCode a)

/-- A run from a state that its step leaves as it is stays there. -/
theorem run_of_step_eq_self {M : Host.Core} {s : M.State} (h : M.step s = .next s) (k : Nat) : M.run k s = .next s := by
  induction k with
  | zero => rfl
  | succ k ih => rw [run_succ h, ih]

/-- Settles O21: with the Transport silent, SHOW leaves its frame in flight, and a waiting step changes nothing. -/
theorem unansweredShowHangs : Obligations.UnansweredShowHangs := by
  unfold Obligations.UnansweredShowHangs
  intro k s t hw hwaits h
  rw [exec_showFrame hw, issueShow_of_silent hwaits] at h
  cases h
  have hstep := step_of_silent (s := { s with inFlight := some s.frame }) hw rfl hwaits
  exact ⟨rfl, run_of_step_eq_self (M := core) hstep k⟩

end Sys2Proof.Machine
end

section
/-! SUPPORT. The frames handed to the Transport: one by each SHOW, none by any other step (spec/20_memory.md R58, R65). -/

namespace Sys2Proof.Machine

theorem issuedFrames_congr {s t : State} (hsent : t.sent = s.sent) (hf : t.inFlight = s.inFlight) :
    issuedFrames t = issuedFrames s := by
  rw [issuedFrames, hsent, hf, issuedFrames]

/-- The answer moves the frame in flight to the completed transactions; it was handed over before. -/
theorem issuedFrames_completeShow {s t : State} {frame : List Byte} (a : Answer) (hsent : t.sent = s.sent)
    (hf : s.inFlight = some frame) : issuedFrames (t.completeShow frame a) = issuedFrames s := by
  simp [issuedFrames, hsent, hf]

/-- A SHOW hands the frame of the state over, whether or not it is answered at once. -/
theorem issuedFrames_issueShow {s t : State} (hf : s.inFlight = none) (h : issueShow s = .next t) :
    issuedFrames t = issuedFrames s ++ [s.frame] := by
  rcases issueShow_next h with ⟨-, rfl⟩ | ⟨rest, -, rfl⟩ | ⟨a, rest, -, rfl⟩ <;> simp [issuedFrames, hf]

/-- No command but SHOW reaches the Transport. -/
theorem issuedFrames_exec {i : Instr} {s t : State} (hi : i ≠ .showFrame) (h : exec i s = .next t) :
    issuedFrames t = issuedFrames s := by
  rcases exec_next_cases h with ⟨rfl, -⟩ | ⟨-, h⟩
  · exact absurd rfl hi
  rcases h with ⟨-, rfl⟩ | ⟨-, ⟨p, -, rfl⟩ | rfl⟩ | ⟨-, rfl⟩ | ⟨-, ⟨-, rfl⟩ | rfl⟩ |
    ⟨-, ⟨p, -, rfl⟩ | rfl⟩ | ⟨w, -, rfl⟩ <;> exact issuedFrames_congr rfl rfl

/-- A SHOW is selected by its word alone. -/
theorem decodeCommand_eq_showFrame_iff {v : Word} : decodeCommand v = .showFrame ↔ v = 0x00000004#32 := by
  constructor
  · intro h
    rw [← encode_decodeCommand v, h, encode]
  · rintro rfl
    rfl

/-- The command that a step performs is that of the access at the head of the host's list. -/
theorem takesCommand_iff {s : State} {a : Access} {rest : List Input} {v : Word} (hf : s.inFlight = none)
    (hi : s.inputs = .access a :: rest) : TakesCommand s v ↔ a = wordAccess s.cfg 0x00 (.write v) := by
  simp [TakesCommand, TakesAccess, hf, hi]

theorem wordAccess_write_inj {c : Config} {o : Nat} {v w : Word} :
    wordAccess c o (.write v) = wordAccess c o (.write w) ↔ v = w := by
  simp [wordAccess]

/-- Whether the step performs a SHOW, and, with it, the frames handed over after the step. -/
theorem step_issuedFrames {s t : State} (h : step s = .next t) :
    (TakesCommand s 0x00000004#32 ∧ issuedFrames t = issuedFrames s ++ [s.frame]) ∨
    (¬ TakesCommand s 0x00000004#32 ∧ issuedFrames t = issuedFrames s) := by
  obtain ⟨-, h⟩ := step_cases h
  rcases h with ⟨f, hf, h⟩ | ⟨hf, hi, rfl⟩ | ⟨rest, hf, hi, rfl⟩ | ⟨a, rest, r, hf, hi, hne, i, c, b, rfl⟩ |
    ⟨v, rest, u, hf, hi, hu, rfl⟩
  · refine .inr ⟨by simp [TakesCommand, TakesAccess, hf], ?_⟩
    rcases h with ⟨-, rfl⟩ | ⟨r, -, rfl⟩ | ⟨a, r, -, rfl⟩
    · rfl
    · exact issuedFrames_congr rfl rfl
    · exact issuedFrames_completeShow a rfl hf
  · exact .inr ⟨by simp [TakesCommand, TakesAccess, hi], rfl⟩
  · exact .inr ⟨by simp [TakesCommand, TakesAccess, hi], issuedFrames_congr rfl hf.symm⟩
  · exact .inr ⟨fun hshow => hne _ ((takesCommand_iff hf hi).mp hshow), issuedFrames_congr rfl rfl⟩
  · rw [takesCommand_iff hf hi, wordAccess_write_inj, ← decodeCommand_eq_showFrame_iff,
      issuedFrames_congr (finishWrite_sent u) (finishWrite_inFlight u)]
    by_cases hshow : decodeCommand v = .showFrame
    · rw [hshow, exec_showFrame (wellFormed_of_exec_next hu)] at hu
      exact .inl ⟨hshow, issuedFrames_issueShow (s := { s with inputs := rest }) hf hu⟩
    · exact .inr ⟨hshow, issuedFrames_exec (s := { s with inputs := rest }) hshow hu⟩

/-- Settles O23: a step performs a SHOW and hands one frame over, or performs none and hands none over. -/
theorem eachShowHandsOverOneFrame : Obligations.EachShowHandsOverOneFrame := by
  unfold Obligations.EachShowHandsOverOneFrame
  intro s t h
  rcases step_issuedFrames h with ⟨hshow, hframes⟩ | ⟨hshow, hframes⟩
  · exact ⟨fun _ => hframes, fun hnot => absurd hshow hnot⟩
  · exact ⟨fun hyes => absurd hyes hshow, fun _ => hframes⟩

end Sys2Proof.Machine
end

section
/-! SUPPORT. The encoding of the commands: decoding and encoding are inverse, the opcode map, and the COLOR word of the
pseudo-instructions (spec/30_encoding.md R70 to R78). -/

namespace Sys2Proof

/-! Decoding a word. -/

theorem wellFormed_illegal_iff {v : Word} :
    (Instr.illegal v).wellFormed = true ↔ v.extractLsb' 8 24 ≠ 0#24 ∨ 6 ≤ (v.extractLsb' 0 8).toNat :=
  decide_eq_true_iff

theorem decodeCommand_of_illegal {v : Word} (h : v.extractLsb' 8 24 ≠ 0#24 ∨ 6 ≤ (v.extractLsb' 0 8).toNat) :
    decodeCommand v = .illegal v :=
  Laws.Encoding.illegal v (wellFormed_illegal_iff.mpr h)

/-- A word with `RSV` 0 is its `OPC` (spec/30_encoding.md R70). -/
theorem eq_setWidth_of_reserved_eq_zero {v : Word} (h : v.extractLsb' 8 24 = 0#24) :
    v = (v.extractLsb' 0 8).setWidth 32 := by
  have hrsv : v.toNat / 2 ^ 8 % 2 ^ 24 = 0 := by
    simpa [← BitVec.toNat_inj, Nat.shiftRight_eq_div_pow] using h
  apply BitVec.eq_of_toNat_eq
  simp only [BitVec.toNat_setWidth, BitVec.extractLsb'_toNat, Nat.shiftRight_zero]
  omega

theorem decodeCommand_encode {i : Instr} (h : i.wellFormed = true) : decodeCommand (encode i) = i := by
  cases i with
  | nop => exact Laws.Encoding.nop h
  | setPixel => exact Laws.Encoding.setPixel h
  | setAll => exact Laws.Encoding.setAll h
  | setBrightness => exact Laws.Encoding.setBrightness h
  | showFrame => exact Laws.Encoding.showFrame h
  | getPixel => exact Laws.Encoding.getPixel h
  | illegal w => exact Laws.Encoding.illegal w h

/-- A word selects a well-formed command exactly when it is that command's word (spec/30_encoding.md R72). -/
theorem decodeCommand_eq_iff {v : Word} {i : Instr} (h : i.wellFormed = true) :
    decodeCommand v = i ↔ v = encode i := by
  constructor
  · rintro rfl
    exact (encode_decodeCommand v).symm
  · rintro rfl
    exact decodeCommand_encode h

/-- A word is decoded as ILLEGAL only where it is no other command's. -/
theorem wellFormed_decodeCommand (v : Word) : (decodeCommand v).wellFormed = true := by
  unfold decodeCommand
  split
  · next hrsv => exact wellFormed_illegal_iff.mpr (.inl hrsv)
  · split
    case h_7 =>
      refine wellFormed_illegal_iff.mpr (.inr ?_)
      simp only [opcodeField, imp_false] at *
      omega
    all_goals rfl

/-! Decoding a word's byte lanes (spec/20_memory.md R53). -/

theorem decodeBytes_lanesOfWord (v : Word) (rest : List Byte) :
    decodeBytes (lanesOfWord v ++ rest) = .ok (decodeCommand v, rest) := by
  rw [lanesOfWord, List.cons_append, List.cons_append, List.cons_append, List.cons_append, List.nil_append, decodeBytes,
    wordOfLanes_lanesOfWord]

theorem decodeBytes_encodeBytes {i : Instr} (rest : List Byte) (h : i.wellFormed = true) :
    decodeBytes (encodeBytes i ++ rest) = .ok (i, rest) := by
  rw [encodeBytes, decodeBytes_lanesOfWord, decodeCommand_encode h]

/-- Settles O4: the lanes of a word make it again, and `encode` and `decodeCommand` are inverse both ways. -/
theorem encodeAndDecodeAgree : Obligations.EncodeAndDecodeAgree := by
  unfold Obligations.EncodeAndDecodeAgree
  exact ⟨fun i rest => decodeBytes_encodeBytes rest, fun v => ⟨wellFormed_decodeCommand v, encode_decodeCommand v⟩⟩

/-- Settles O2: each of the six commands is well formed, and the table's value is its word. -/
theorem commandsAreSelectedByTheirWordAlone : Obligations.CommandsAreSelectedByTheirWordAlone := by
  unfold Obligations.CommandsAreSelectedByTheirWordAlone
  intro v
  exact ⟨decodeCommand_eq_iff (i := .nop) rfl, decodeCommand_eq_iff (i := .setPixel) rfl,
    decodeCommand_eq_iff (i := .setAll) rfl, decodeCommand_eq_iff (i := .setBrightness) rfl,
    decodeCommand_eq_iff (i := .showFrame) rfl, decodeCommand_eq_iff (i := .getPixel) rfl⟩

/-- Settles O1: with `RSV` 0 the word is its `OPC`, so six words are left that are not illegal. -/
theorem decodingFollowsTheOpcodeMap : Obligations.DecodingFollowsTheOpcodeMap := by
  unfold Obligations.DecodingFollowsTheOpcodeMap
  intro v
  refine ⟨fun hrsv => decodeCommand_of_illegal (.inl hrsv), fun hrsv => ?_⟩
  have hv := eq_setWidth_of_reserved_eq_zero hrsv
  refine ⟨fun hopc => ?_, fun hopc => ?_, fun hopc => ?_, fun hopc => ?_, fun hopc => ?_, fun hopc => ?_,
    fun hopc => decodeCommand_of_illegal (.inr hopc)⟩
  all_goals
    rw [hopc] at hv
    rw [hv]
    rfl

/-- Settles O3: the bytes are the lanes of the word of each command, and each command is well formed. -/
theorem chosenWordsDecode : Obligations.ChosenWordsDecode := by
  unfold Obligations.ChosenWordsDecode
  exact ⟨decodeBytes_encodeBytes (i := .setPixel) [] rfl, decodeBytes_encodeBytes (i := .showFrame) [] rfl,
    decodeBytes_encodeBytes (i := .illegal 0x00000104#32) [] rfl,
    decodeBytes_encodeBytes (i := .illegal 0x80000000#32) [] rfl⟩

end Sys2Proof

namespace Sys2Proof.Machine

/-! The COLOR word of the pseudo-instructions is the packed color. -/

theorem pack_some (r g b w : Int) : pack r g b (some w) = packColor (mkColor4 r g b w) := rfl

theorem pack_none (r g b : Int) : pack r g b none = packColor (mkColor3 r g b) := rfl

/-- Settles O45: both forms of `pack` are `packColor` of the constructed color. -/
theorem packedColorsUnpack : Obligations.PackedColorsUnpack := by
  unfold Obligations.PackedColorsUnpack
  intro r g b w
  rw [pack_some, pack_none]
  exact ⟨unpackColor_packColor _, unpackColor_packColor _⟩

/-! The operand registers that a command ignores (spec/30_encoding.md R71). -/

/-- A SHOW reads no operand register, whatever the Transport does next. -/
theorem issueShow_ignores_operands {s t : State} (x y : Word) (b : Bits64) (h : issueShow s = .next t) :
    issueShow { s with index := x, color := y, brightIn := b } =
      .next { t with index := x, color := y, brightIn := b } := by
  rcases issueShow_next h with ⟨hwaits, rfl⟩ | ⟨rest, hwaits, rfl⟩ | ⟨a, rest, hwaits, rfl⟩
  · exact issueShow_of_silent hwaits
  · exact issueShow_of_pending hwaits
  · exact issueShow_of_answer hwaits

/-- Settles O17: SET_ALL reads COLOR alone, NOP reads nothing, and a SHOW reads the frame's parts. -/
theorem unusedOperandsAreIgnored : Obligations.UnusedOperandsAreIgnored := by
  unfold Obligations.UnusedOperandsAreIgnored
  intro s t x y b
  refine ⟨fun h => ?_, fun h => ?_, fun h => ?_⟩ <;> have hw := wellFormed_of_exec_next h
  · rw [exec_setAll hw] at h
    cases h
    exact exec_setAll (s := { s with index := x }) hw
  · rw [exec_nop hw] at h
    cases h
    exact exec_nop (s := { s with index := x, color := y, brightIn := b }) hw
  · rw [exec_showFrame hw] at h
    exact (exec_showFrame (s := { s with index := x, color := y, brightIn := b }) hw).trans
      (issueShow_ignores_operands x y b h)

end Sys2Proof.Machine
end

section
/-! SUPPORT. The Color Model: clamping, the two forms of `bright_valid`, the default SCALE and the wire order
(spec/40_color_model.md R101 to R110, spec/00_scope.md R16). -/

namespace Sys2Proof.Machine

/-! The three ranges of `clamp8` (R101). -/

theorem clamp8_of_neg {x : Int} (h : x < 0) : clamp8 x = 0#8 := if_pos h

theorem clamp8_of_gt {x : Int} (h : 255 < x) : clamp8 x = 255#8 := by
  rw [clamp8, if_neg (by omega), if_pos h]

theorem clamp8_of_mem {x : Int} (h0 : 0 ≤ x) (h255 : x ≤ 255) : clamp8 x = BitVec.ofInt 8 x := by
  rw [clamp8, if_neg (by omega), if_neg (by omega)]

/-- Settles O44: an integer of the byte range is its own residue modulo 256. -/
theorem clampingBoundsEveryInteger : Obligations.ClampingBoundsEveryInteger := by
  unfold Obligations.ClampingBoundsEveryInteger
  intro x
  refine ⟨fun h => ?_, fun h => ?_, fun h0 h255 => ?_⟩
  · rw [clamp8_of_neg h]
    rfl
  · rw [clamp8_of_gt h]
    rfl
  · rw [clamp8_of_mem h0 h255, BitVec.toNat_ofInt]
    omega

/-! The binary64 comparison in terms of the pattern as a number: the sign is at `2 ^ 63`, the magnitude below it. -/

theorem fl64IsNan_iff (b : Bits64) : fl64IsNan b = true ↔ 0x7FF0000000000000 < b.toNat % 2 ^ 63 := by
  simp only [fl64IsNan, fl64Exponent, fl64Fraction, Bool.and_eq_true, decide_eq_true_eq, BitVec.extractLsb'_toNat,
    Nat.shiftRight_eq_div_pow]
  omega

theorem fl64Key_of_lt {b : Bits64} (h : b.toNat < 2 ^ 63) : fl64Key b = b.toNat := by
  have hsign : b.getLsbD 63 = false := by
    rw [← BitVec.testBit_toNat]
    exact Nat.testBit_lt_two_pow h
  simp only [fl64Key, hsign, BitVec.extractLsb'_toNat, Nat.shiftRight_zero, Nat.mod_eq_of_lt h, Bool.false_eq_true,
    if_false]

theorem fl64Key_of_ge {b : Bits64} (h : 2 ^ 63 ≤ b.toNat) : fl64Key b = 2 ^ 63 - (b.toNat : Int) := by
  have hsign : b.getLsbD 63 = true := by
    have hmsb := BitVec.msb_eq_decide b
    rw [BitVec.msb_eq_getLsbD_last, decide_eq_true h] at hmsb
    exact hmsb
  simp only [fl64Key, hsign, BitVec.extractLsb'_toNat, Nat.shiftRight_zero, if_true]
  omega

theorem brightValid_iff_toNat (b : Bits64) :
    brightValid b = true ↔ b.toNat ≤ 0x3FF0000000000000 ∨ b.toNat = 2 ^ 63 := by
  simp [brightValid, ← BitVec.toNat_inj]

theorem brightValidIeee_iff (b : Bits64) :
    brightValidIeee b = true ↔ fl64IsNan b = false ∧ 0 ≤ fl64Key b ∧ fl64Key b ≤ 0x3FF0000000000000 := by
  have hzero : fl64IsNan 0x0000000000000000#64 = false ∧ fl64Key 0x0000000000000000#64 = 0 := by decide
  have hone : fl64IsNan 0x3FF0000000000000#64 = false ∧ fl64Key 0x3FF0000000000000#64 = 0x3FF0000000000000 := by
    decide
  simp only [brightValidIeee, fl64Le, hzero, hone, Bool.and_eq_true, Bool.not_eq_true', decide_eq_true_eq,
    Bool.not_false, true_and, and_true]
  tauto

/-- The two forms of R105: without the sign bit the key is the pattern; with it, the key is 0 at -0.0 and negative at
every pattern above. -/
theorem brightValid_eq_brightValidIeee (b : Bits64) : brightValid b = brightValidIeee b := by
  rw [Bool.eq_iff_iff, brightValid_iff_toNat, brightValidIeee_iff, ← Bool.not_eq_true, fl64IsNan_iff]
  rcases lt_or_ge b.toNat (2 ^ 63) with hlt | hge
  · rw [fl64Key_of_lt hlt]
    omega
  · rw [fl64Key_of_ge hge]
    omega

/-- Settles O46: the first form is `brightValidIeee`, the second is how `brightValid` is defined. -/
theorem brightValidFormsAgree : Obligations.BrightValidFormsAgree := by
  unfold Obligations.BrightValidFormsAgree
  exact fun b => ⟨brightValid_eq_brightValidIeee b, rfl⟩

/-! The laws of SCALE (R107). -/

/-- Settles O47: the default and the alternatives round the exact product to a whole number next to it, and any other
`SCALE` is held to the laws. -/
theorem everyScaleSatisfiesTheLaws : Obligations.EveryScaleSatisfiesTheLaws := by
  unfold Obligations.EveryScaleSatisfiesTheLaws
  exact scaleLaws_scale8

/-! The default SCALE: the exact product is rounded to 53 bits (R106). -/

theorem lt_two_pow_bitLength (p : Nat) : p < 2 ^ bitLength p := by
  unfold bitLength
  split
  · omega
  · exact Nat.lt_log2_self

theorem two_pow_le_of_lt_bitLength {p n : Nat} (h : n < bitLength p) : 2 ^ n ≤ p :=
  le_of_not_gt fun hlt => (bitLength_le hlt).not_gt h

@[simp] theorem shiftNearestEven_zero (p : Nat) : shiftNearestEven p 0 = p := by simp [shiftNearestEven]

/-- A multiple of `2 ^ sh` that is nearest to `p`, an even one of two that are equally near. -/
structure IsNearestEven (p sh q : Nat) : Prop where
  near : 2 * ((q * 2 ^ sh : Int) - (p : Int)).natAbs ≤ 2 ^ sh
  tie : 2 * ((q * 2 ^ sh : Int) - (p : Int)).natAbs = 2 ^ sh → q % 2 = 0

theorem IsNearestEven.of_distance {p n q : Nat} {d : Int} (hd : (q * 2 ^ (n + 1) : Int) - (p : Int) = d)
    (hnear : d.natAbs ≤ 2 ^ n) (htie : d.natAbs = 2 ^ n → q % 2 = 0) : IsNearestEven p (n + 1) q := by
  constructor <;> rw [hd, Nat.pow_succ] <;> omega

/-- A shift by `n + 1` bits rounds up past the half `2 ^ n` of what it drops, and at the half where the quotient is
odd. -/
theorem shiftNearestEven_succ (p n : Nat) :
    shiftNearestEven p (n + 1) =
      if 2 ^ n < p % 2 ^ (n + 1) ∨ (p % 2 ^ (n + 1) = 2 ^ n ∧ p / 2 ^ (n + 1) % 2 = 1) then p / 2 ^ (n + 1) + 1
      else p / 2 ^ (n + 1) := by
  have hrem : p - p / 2 ^ (n + 1) * 2 ^ (n + 1) = p % 2 ^ (n + 1) := by
    rw [Nat.mul_comm, Nat.mod_eq_sub_mul_div]
  simp only [shiftNearestEven, Nat.shiftRight_eq_div_pow, Nat.shiftLeft_eq, hrem, Nat.succ_pos, true_and,
    Nat.add_sub_cancel]

theorem isNearestEven_shiftNearestEven (p sh : Nat) : IsNearestEven p sh (shiftNearestEven p sh) := by
  cases sh with
  | zero => constructor <;> simp
  | succ n =>
    have hp : (p : Int) = 2 ^ (n + 1) * (p / 2 ^ (n + 1) : Nat) + (p % 2 ^ (n + 1) : Nat) := by
      exact_mod_cast (Nat.div_add_mod p (2 ^ (n + 1))).symm
    have hlt : p % 2 ^ (n + 1) < 2 ^ n * 2 := Nat.mod_lt p (Nat.two_pow_pos (n + 1))
    rw [shiftNearestEven_succ]
    split
    · have hd : (((p / 2 ^ (n + 1) + 1 : Nat) : Int) * 2 ^ (n + 1)) - (p : Int) =
          ((2 ^ n * 2 : Nat) : Int) - (p % 2 ^ (n + 1) : Nat) := by
        rw [hp]
        push_cast
        ring
      exact .of_distance hd (by omega) (by omega)
    · have hd : (((p / 2 ^ (n + 1) : Nat) : Int) * 2 ^ (n + 1)) - (p : Int) = -((p % 2 ^ (n + 1) : Nat) : Int) := by
        rw [hp]
        ring
      exact .of_distance hd (by omega) (by omega)

/-- No bit past 53 is the case of a shift by 0. -/
theorem round53_eq (v : Nat × Int) :
    round53 v = (shiftNearestEven v.1 (bitLength v.1 - 53), v.2 + ((bitLength v.1 - 53 : Nat) : Int)) := by
  unfold round53
  split
  · rfl
  · next h => simp [Nat.sub_eq_zero_of_le (not_lt.mp h)]

theorem truncValue_eq (v : Nat × Int) :
    truncValue v = if 0 ≤ v.2 then v.1 * 2 ^ v.2.toNat else v.1 / 2 ^ (-v.2).toNat := by
  simp only [truncValue, Nat.shiftLeft_eq, Nat.shiftRight_eq_div_pow]

/-- The rounded product is at most the channel, so its byte is the number itself. -/
theorem toNat_scale8_fl64Trunc {b : Bits64} (h : brightValid b = true) (c : Byte) :
    (scale8 .fl64Trunc c b).toNat = truncValue (fl64Mul c b) := by
  have hle : truncValue (fl64Mul c b) ≤ c.toNat :=
    (isRounding_fl64Trunc h c).le_of_value_le (exactProduct_le_channel h c)
  exact Nat.mod_eq_of_lt (lt_of_le_of_lt hle c.isLt)

theorem fl64Significand_of_subnormal {b : Bits64} (h : fl64Exponent b = 0) :
    fl64Significand b = (fl64Fraction b, -1074) := if_pos h

theorem fl64Significand_of_normal {b : Bits64} (h : fl64Exponent b ≠ 0) :
    fl64Significand b = (fl64Fraction b + 2 ^ 52, (fl64Exponent b : Int) - 1075) := if_neg h

/-- Settles O48: `M` and `E` are the significand's, `sh` is the number of bits past 53, and `Q` is the rounded
quotient. -/
theorem defaultScaleTruncatesTheNearestProduct : Obligations.DefaultScaleTruncatesTheNearestProduct := by
  unfold Obligations.DefaultScaleTruncatesTheNearestProduct
  intro c b h
  have hnearest := isNearestEven_shiftNearestEven (exactProduct c b).1 (bitLength (exactProduct c b).1 - 53)
  refine ⟨(fl64Significand b).1, (exactProduct c b).1, _, bitLength (exactProduct c b).1 - 53, (exactProduct c b).2,
    fun hsub => ?_, fun hnorm => ?_, rfl, hnearest.near, hnearest.tie, ?_, fun hsh => ?_, ?_⟩
  · rw [exactProduct, fl64Significand_of_subnormal hsub]
    exact ⟨rfl, rfl⟩
  · rw [exactProduct, fl64Significand_of_normal hnorm]
    exact ⟨rfl, rfl⟩
  · exact lt_of_lt_of_le (lt_two_pow_bitLength _) (Nat.pow_le_pow_right two_pos (by omega))
  · exact two_pow_le_of_lt_bitLength (by omega)
  · rw [toNat_scale8_fl64Trunc h, fl64Mul, round53_eq, truncValue_eq]

/-! The wire order (R109). -/

@[simp] theorem wireOrderChannels_true (c : Color) :
    wireOrderChannels c true = [c.green, c.red, c.blue, c.white] := rfl

@[simp] theorem wireOrderChannels_false (c : Color) : wireOrderChannels c false = [c.green, c.red, c.blue] := rfl

/-- Settles O49: the order with a white channel, and without. -/
theorem wireOrderIsGreenRedBlueWhite : Obligations.WireOrderIsGreenRedBlueWhite := by
  unfold Obligations.WireOrderIsGreenRedBlueWhite
  exact fun c => ⟨wireOrderChannels_true c, wireOrderChannels_false c⟩

/-- Settles O50: in each format, a channel of the scaled color is the scaled channel. -/
theorem reorderingAndScalingCommute : Obligations.ReorderingAndScalingCommute := by
  unfold Obligations.ReorderingAndScalingCommute
  intro k c b h
  cases h with
  | true => simp [scaled]
  | false => simp [scaled]

end Sys2Proof.Machine
end

section
/-! SUPPORT. The Bit Encoder: the bits and the bytes of a pulse stream, and `encode_byte` and `decode_byte` as inverses
(spec/41_bit_encoder.md R120 to R125). -/

namespace Sys2Proof.Machine

/-! The two patterns of a well-formed configuration (R120, spec/00_scope.md R12). -/

theorem width_pos {c : Config} (h : c.wellFormed = true) : 0 < c.width := by
  obtain ⟨-, ⟨hwidth, -⟩, -⟩ := (wellFormed_iff c).mp h
  omega

theorem encodeBit_lt {c : Config} (h : c.wellFormed = true) (b : Bool) : encodeBit c b < 2 ^ c.width := by
  obtain ⟨-, -, ⟨h0, h1, -⟩, -⟩ := (wellFormed_iff c).mp h
  cases b with
  | false => exact h0
  | true => exact h1

/-- `P0 ≠ P1`: a pattern tells its bit. -/
theorem encodeBit_injective {c : Config} (h : c.wellFormed = true) : Function.Injective (encodeBit c) := by
  obtain ⟨-, -, ⟨-, -, hne⟩, -⟩ := (wellFormed_iff c).mp h
  intro a b hab
  match a, b, hab with
  | false, false, _ => rfl
  | true, true, _ => rfl
  | false, true, heq => exact absurd heq hne
  | true, false, heq => exact absurd heq.symm hne

/-! The stream of R121, pattern by pattern. -/

/-- The patterns of `v[n-1]` to `v[0]` alone: the stream `E` of R121 after `n` turns of its loop. -/
def pulsesBelow (c : Config) (v : Byte) (n : Nat) : Nat :=
  (List.range n).foldl (fun e i => e ||| (encodeBit c (v.getLsbD i) <<< (c.width * i))) 0

theorem pulseStream_eq_pulsesBelow (c : Config) (v : Byte) : pulseStream c v = pulsesBelow c v 8 := rfl

@[simp] theorem pulsesBelow_zero (c : Config) (v : Byte) : pulsesBelow c v 0 = 0 := rfl

theorem pulsesBelow_succ (c : Config) (v : Byte) (n : Nat) :
    pulsesBelow c v (n + 1) = pulsesBelow c v n ||| encodeBit c (v.getLsbD n) <<< (c.width * n) := by
  simp [pulsesBelow, List.range_succ]

/-- A pattern has no bit outside its own place in the stream. -/
theorem testBit_shiftLeft_mul {w p k : Nat} (hp : p < 2 ^ w) (hk : k < w) (n i : Nat) :
    (p <<< (w * n)).testBit (w * i + k) = (decide (i = n) && p.testBit k) := by
  rw [Nat.testBit_shiftLeft]
  rcases lt_trichotomy i n with hlt | rfl | hgt
  · have hle : w * (i + 1) ≤ w * n := Nat.mul_le_mul_left w hlt
    rw [Nat.mul_succ] at hle
    simp [hlt.ne, show ¬ w * n ≤ w * i + k by omega]
  · simp
  · have hle : w * (n + 1) ≤ w * i := Nat.mul_le_mul_left w hgt
    rw [Nat.mul_succ] at hle
    have hout : p.testBit (w * i + k - w * n) = false :=
      Nat.testBit_lt_two_pow (hp.trans_le (Nat.pow_le_pow_right two_pos (by omega)))
    simp [hgt.ne', hout]

theorem testBit_pulsesBelow {c : Config} (hp : ∀ b, encodeBit c b < 2 ^ c.width) {k : Nat} (hk : k < c.width)
    (v : Byte) (n i : Nat) :
    (pulsesBelow c v n).testBit (c.width * i + k) = (decide (i < n) && (encodeBit c (v.getLsbD i)).testBit k) := by
  induction n with
  | zero => simp
  | succ n ih =>
    rw [pulsesBelow_succ, Nat.testBit_or, ih, testBit_shiftLeft_mul (hp _) hk]
    rcases eq_or_ne i n with rfl | hne
    · simp
    · have hlt : i < n + 1 ↔ i < n := by omega
      simp only [hne, hlt, decide_false, Bool.false_and, Bool.or_false]

/-- Bit `k` of the pattern of `v[i]` is bit `W * i + k` of the stream (R121). -/
theorem testBit_pulseStream {c : Config} (hp : ∀ b, encodeBit c b < 2 ^ c.width) (v : Byte) {i k : Nat} (hi : i < 8)
    (hk : k < c.width) : (pulseStream c v).testBit (c.width * i + k) = (encodeBit c (v.getLsbD i)).testBit k := by
  simp [pulseStream_eq_pulsesBelow, testBit_pulsesBelow hp hk, hi]

theorem pulseStream_lt {c : Config} (h : c.wellFormed = true) (v : Byte) : pulseStream c v < 2 ^ (c.width * 8) := by
  refine Nat.lt_pow_two_of_testBit _ fun m hm => ?_
  have hout : ¬ m / c.width < 8 := not_lt.mpr ((Nat.le_div_iff_mul_le (width_pos h)).mpr (by rwa [Nat.mul_comm]))
  rw [← Nat.div_add_mod m c.width, pulseStream_eq_pulsesBelow,
    testBit_pulsesBelow (encodeBit_lt h) (Nat.mod_lt m (width_pos h))]
  simp [hout]

/-! The `w`-bit groups of a stream, which `decode_byte` reads (R124). -/

/-- The group of bit `i`: bits `[w*i + w - 1 : w*i]`. -/
def streamGroup (w e i : Nat) : Nat := (e >>> (w * i)) % 2 ^ w

theorem testBit_streamGroup {w k : Nat} (hk : k < w) (e i : Nat) :
    (streamGroup w e i).testBit k = e.testBit (w * i + k) := by
  simp [streamGroup, Nat.testBit_mod_two_pow, hk]

theorem streamGroup_lt (w e i : Nat) : streamGroup w e i < 2 ^ w := Nat.mod_lt _ (Nat.two_pow_pos w)

/-- A stream of `n` groups is determined by them. -/
theorem eq_of_streamGroup_eq {w n a b : Nat} (hw : 0 < w) (ha : a < 2 ^ (w * n)) (hb : b < 2 ^ (w * n))
    (h : ∀ i, i < n → streamGroup w a i = streamGroup w b i) : a = b := by
  apply Nat.eq_of_testBit_eq
  intro m
  rcases lt_or_ge m (w * n) with hlt | hge
  · have hgroup := h (m / w) (Nat.div_lt_of_lt_mul hlt)
    rw [← Nat.div_add_mod m w, ← testBit_streamGroup (Nat.mod_lt m hw), hgroup, testBit_streamGroup (Nat.mod_lt m hw)]
  · have hpow : 2 ^ (w * n) ≤ 2 ^ m := Nat.pow_le_pow_right two_pos hge
    rw [Nat.testBit_lt_two_pow (ha.trans_le hpow), Nat.testBit_lt_two_pow (hb.trans_le hpow)]

theorem streamGroup_pulseStream {c : Config} (h : c.wellFormed = true) (v : Byte) {i : Nat} (hi : i < 8) :
    streamGroup c.width (pulseStream c v) i = encodeBit c (v.getLsbD i) := by
  apply Nat.eq_of_testBit_eq
  intro k
  rcases lt_or_ge k c.width with hlt | hge
  · rw [testBit_streamGroup hlt, testBit_pulseStream (encodeBit_lt h) v hi hlt]
  · have hpow : 2 ^ c.width ≤ 2 ^ k := Nat.pow_le_pow_right two_pos hge
    rw [Nat.testBit_lt_two_pow ((streamGroup_lt _ _ _).trans_le hpow),
      Nat.testBit_lt_two_pow ((encodeBit_lt h _).trans_le hpow)]

/-! The bytes of a stream (R121) and the stream of bytes (R124). -/

/-- `E` cut into `n` bytes, the highest first. -/
def bytesOfStream (n e : Nat) : List Byte :=
  (List.range n).map fun j => BitVec.ofNat 8 (e >>> (8 * n - 8 - 8 * j))

theorem encodeByte_eq_bytesOfStream (c : Config) (v : Byte) : encodeByte c v = bytesOfStream c.width (pulseStream c v) :=
  rfl

@[simp] theorem length_bytesOfStream (n e : Nat) : (bytesOfStream n e).length = n := by simp [bytesOfStream]

@[simp] theorem bytesOfStream_zero (e : Nat) : bytesOfStream 0 e = [] := rfl

/-- The last byte is the stream's lowest. -/
theorem bytesOfStream_succ (n e : Nat) : bytesOfStream (n + 1) e = bytesOfStream n (e >>> 8) ++ [BitVec.ofNat 8 e] := by
  rw [bytesOfStream, List.range_succ, List.map_append]
  congr 1
  · refine List.map_congr_left fun j hj => ?_
    have hshift : 8 * (n + 1) - 8 - 8 * j = 8 + (8 * n - 8 - 8 * j) := by
      have := List.mem_range.mp hj
      omega
    rw [hshift, Nat.shiftRight_add]
  · simp [Nat.mul_succ]

@[simp] theorem streamOfBytes_nil : streamOfBytes [] = 0 := rfl

@[simp] theorem streamOfBytes_append_singleton (bs : List Byte) (b : Byte) :
    streamOfBytes (bs ++ [b]) = streamOfBytes bs * 256 + b.toNat := by
  simp [streamOfBytes]

theorem streamOfBytes_lt (bs : List Byte) : streamOfBytes bs < 2 ^ (8 * bs.length) := by
  induction bs using List.reverseRecOn with
  | nil => simp
  | append_singleton bs b ih =>
    have hb := b.isLt
    rw [streamOfBytes_append_singleton, List.length_append, List.length_singleton, Nat.mul_add, Nat.pow_add]
    omega

theorem bytesOfStream_streamOfBytes (bs : List Byte) : bytesOfStream bs.length (streamOfBytes bs) = bs := by
  induction bs using List.reverseRecOn with
  | nil => rfl
  | append_singleton bs b ih =>
    have hhigh : (streamOfBytes bs * 256 + b.toNat) >>> 8 = streamOfBytes bs := by
      have hb := b.isLt
      rw [Nat.shiftRight_eq_div_pow]
      omega
    have hlow : BitVec.ofNat 8 (streamOfBytes bs * 256 + b.toNat) = b := by
      apply BitVec.eq_of_toNat_eq
      rw [BitVec.toNat_ofNat]
      omega
    rw [streamOfBytes_append_singleton, List.length_append, List.length_singleton, bytesOfStream_succ, hhigh, hlow, ih]

theorem streamOfBytes_bytesOfStream {n e : Nat} (h : e < 2 ^ (8 * n)) : streamOfBytes (bytesOfStream n e) = e := by
  induction n generalizing e with
  | zero => exact (Nat.lt_one_iff.mp h).symm
  | succ n ih =>
    have hhigh : e / 2 ^ 8 < 2 ^ (8 * n) := Nat.div_lt_of_lt_mul (by rwa [← Nat.pow_add, Nat.add_comm])
    rw [bytesOfStream_succ, streamOfBytes_append_singleton, Nat.shiftRight_eq_div_pow, ih hhigh, BitVec.toNat_ofNat]
    omega

/-! `decode_byte` (R124) reads each group as the pattern of one bit of its result. -/

theorem decodeGroup_eq (c : Config) (e a i : Nat) :
    decodeGroup c e a i =
      if streamGroup c.width e i = encodeBit c true then some (2 * a + 1)
      else if streamGroup c.width e i = encodeBit c false then some (2 * a) else none := rfl

/-- One turn appends the bit whose pattern the group is. -/
theorem decodeGroup_eq_some_iff {c : Config} (h : c.wellFormed = true) {e a i x : Nat} :
    decodeGroup c e a i = some x ↔ x / 2 = a ∧ streamGroup c.width e i = encodeBit c (x.testBit 0) := by
  rw [decodeGroup_eq]
  split
  · next hone =>
    rw [hone, (encodeBit_injective h).eq_iff, Option.some_inj, Nat.testBit_zero, eq_comm (a := true), decide_eq_true_iff]
    omega
  · next hone =>
    split
    · next hzero =>
      rw [hzero, (encodeBit_injective h).eq_iff, Option.some_inj, Nat.testBit_zero, eq_comm (a := false),
        decide_eq_false_iff_not]
      omega
    · next hzero => cases x.testBit 0 <;> simp [hone, hzero]

/-- The loop appends the bits of the groups `n-1` down to 0. -/
theorem foldlM_decodeGroup_eq_some_iff {c : Config} (h : c.wellFormed = true) {e n a x : Nat} :
    (List.range n).reverse.foldlM (decodeGroup c e) a = some x ↔
      x / 2 ^ n = a ∧ ∀ i, i < n → streamGroup c.width e i = encodeBit c (x.testBit i) := by
  induction n generalizing a with
  | zero => simp [eq_comm]
  | succ n ih =>
    have hsplit : (List.range (n + 1)).reverse.foldlM (decodeGroup c e) a = some x ↔
        decodeGroup c e a n = some (x / 2 ^ n) ∧
          ∀ i, i < n → streamGroup c.width e i = encodeBit c (x.testBit i) := by
      simp [List.range_succ, Option.bind_eq_some_iff, ih, -List.foldlM_reverse]
    rw [hsplit, decodeGroup_eq_some_iff h, Nat.div_div_eq_div_mul, ← Nat.pow_succ, Nat.testBit_div_two_pow, Nat.zero_add,
      Nat.forall_lt_succ_right, and_assoc, and_comm (a := streamGroup _ _ _ = _)]

/-- What `decode_byte` accepts: `W` bytes whose groups are the patterns of the bits of `v`. -/
theorem decodeByte_eq_some_iff {c : Config} (h : c.wellFormed = true) {bs : List Byte} {v : Byte} :
    decodeByte c bs = some v ↔
      bs.length = c.width ∧
        ∀ i, i < 8 → streamGroup c.width (streamOfBytes bs) i = encodeBit c (v.getLsbD i) := by
  have hbits : ((List.range 8).reverse.foldlM (decodeGroup c (streamOfBytes bs)) 0).map (BitVec.ofNat 8) = some v ↔
      ∀ i, i < 8 → streamGroup c.width (streamOfBytes bs) i = encodeBit c (v.getLsbD i) := by
    simp only [Option.map_eq_some_iff, foldlM_decodeGroup_eq_some_iff h]
    constructor
    · rintro ⟨x, ⟨-, hgroups⟩, rfl⟩ i hi
      rw [hgroups i hi, BitVec.getLsbD_ofNat, decide_eq_true hi, Bool.true_and]
    · intro hgroups
      exact ⟨v.toNat, ⟨Nat.div_eq_of_lt v.isLt, hgroups⟩, by simp⟩
  rw [← hbits, decodeByte]
  split
  · next hlen => simp [hlen]
  · next hlen => exact (and_iff_right (not_not.mp hlen)).symm

/-! `encode_byte` and `decode_byte` are inverse (R125). -/

@[simp] theorem length_encodeByte (c : Config) (v : Byte) : (encodeByte c v).length = c.width :=
  length_bytesOfStream _ _

theorem streamOfBytes_encodeByte {c : Config} (h : c.wellFormed = true) (v : Byte) :
    streamOfBytes (encodeByte c v) = pulseStream c v :=
  streamOfBytes_bytesOfStream (Nat.mul_comm 8 _ ▸ pulseStream_lt h v)

theorem decodeByte_encodeByte {c : Config} (h : c.wellFormed = true) (v : Byte) :
    decodeByte c (encodeByte c v) = some v := by
  rw [decodeByte_eq_some_iff h, streamOfBytes_encodeByte h]
  exact ⟨length_encodeByte c v, fun i hi => streamGroup_pulseStream h v hi⟩

/-- The groups that decode to `v` are those of `v`'s stream, and both streams have 8 groups. -/
theorem encodeByte_of_decodeByte {c : Config} (h : c.wellFormed = true) {bs : List Byte} {v : Byte}
    (hbs : decodeByte c bs = some v) : encodeByte c v = bs := by
  obtain ⟨hlen, hgroups⟩ := (decodeByte_eq_some_iff h).mp hbs
  have hlt : streamOfBytes bs < 2 ^ (c.width * 8) := by
    rw [← hlen, Nat.mul_comm]
    exact streamOfBytes_lt bs
  have hstream : pulseStream c v = streamOfBytes bs :=
    eq_of_streamGroup_eq (width_pos h) (pulseStream_lt h v) hlt fun i hi => by
      rw [streamGroup_pulseStream h v hi, hgroups i hi]
  rw [encodeByte_eq_bytesOfStream, hstream, ← hlen, bytesOfStream_streamOfBytes]

/-- Settles O52: each group of the stream determines its bit of `v`, and the other way round. -/
theorem encodedBytesRoundTrip : Obligations.EncodedBytesRoundTrip := by
  unfold Obligations.EncodedBytesRoundTrip
  exact fun c v h =>
    ⟨length_encodeByte c v, decodeByte_encodeByte h v, fun _ hbs => encodeByte_of_decodeByte h hbs⟩

/-! The stream on the wire (R122): both sides are the bits of the stream from the highest down, the bytes in rows of 8
and the patterns in rows of `W`. -/

/-- A table of `a` rows and `b` columns, read row by row. -/
theorem flatMap_range_mul {α : Type} (f : Nat → α) (a b : Nat) :
    ((List.range a).flatMap fun i => (List.range b).map fun k => f (b * i + k)) = (List.range (b * a)).map f := by
  induction a with
  | zero => simp
  | succ a ih => simp [List.range_succ (n := a), ih, Nat.mul_succ, List.range_add]

/-- The `m` lowest bits of a stream, the highest first. -/
def bitsFromTop (m e : Nat) : List Bool := (List.range m).map fun t => e.testBit (m - 1 - t)

theorem wireBits_bytesOfStream (n e : Nat) : wireBits (bytesOfStream n e) = bitsFromTop (8 * n) e := by
  rw [bitsFromTop, ← flatMap_range_mul, wireBits, bytesOfStream, List.flatMap_map]
  refine List.flatMap_congr fun j hj => List.map_congr_left fun i hi => ?_
  have hj := List.mem_range.mp hj
  have hi := List.mem_range.mp hi
  have hpos : 8 * n - 8 - 8 * j + (8 - 1 - i) = 8 * n - 1 - (8 * j + i) := by omega
  rw [BitVec.getMsbD_eq_getLsbD, BitVec.getLsbD_ofNat, Nat.testBit_shiftRight, hpos]
  simp [hi, show 7 - i < 8 by omega]

theorem bitsFromTop_pulseStream {c : Config} (h : c.wellFormed = true) (v : Byte) :
    bitsFromTop (c.width * 8) (pulseStream c v) =
      (List.range 8).flatMap fun i => (List.range c.width).map fun k =>
        (encodeBit c (v.getLsbD (7 - i))).testBit (c.width - 1 - k) := by
  rw [bitsFromTop, ← flatMap_range_mul]
  refine List.flatMap_congr fun i hi => List.map_congr_left fun k hk => ?_
  have hi := List.mem_range.mp hi
  have hk := List.mem_range.mp hk
  have hpos : c.width * 8 - 1 - (c.width * i + k) = c.width * (7 - i) + (c.width - 1 - k) := by
    have hrows : c.width * 8 = c.width * i + c.width * (7 - i) + c.width := by
      rw [← Nat.mul_add, ← Nat.mul_succ, show (i + (7 - i)).succ = 8 by omega]
    omega
  rw [hpos, testBit_pulseStream (encodeBit_lt h) v (by omega) (by omega)]

/-- Settles O53: the bytes of the stream and its patterns hold the same bits in the same order. -/
theorem encodedBytesCarryThePatternStream : Obligations.EncodedBytesCarryThePatternStream := by
  unfold Obligations.EncodedBytesCarryThePatternStream
  intro c v h
  rw [encodeByte_eq_bytesOfStream, wireBits_bytesOfStream, Nat.mul_comm]
  exact bitsFromTop_pulseStream h v

/-! The closed form for the default patterns (R123). -/

theorem encodeBit_default {c : Config} (h : DefaultPatterns c) (b : Bool) : encodeBit c b = 0b100 ||| b.toNat <<< 1 := by
  obtain ⟨-, h0, h1⟩ := h
  cases b with
  | false => simp [encodeBit, h0]
  | true => simp [encodeBit, h1]

/-- The bits of `1 v[i] 0` at their places in the stream. -/
theorem testBit_pulseStream_default {c : Config} (h : DefaultPatterns c) (v : Byte) {i : Nat} (hi : i < 8) :
    (pulseStream c v).testBit (3 * i + 2) = true ∧ (pulseStream c v).testBit (3 * i + 1) = v.getLsbD i ∧
      (pulseStream c v).testBit (3 * i) = false := by
  have hp : ∀ b, encodeBit c b < 2 ^ c.width := fun b => by
    rw [h.1, encodeBit_default h]
    cases b <;> decide
  have hbit : ∀ k, k < 3 → (pulseStream c v).testBit (3 * i + k) = (0b100 ||| (v.getLsbD i).toNat <<< 1).testBit k := by
    rw [← encodeBit_default h, ← h.1]
    exact fun k => testBit_pulseStream hp v hi
  refine ⟨(hbit 2 (by decide)).trans ?_, (hbit 1 (by decide)).trans ?_, (hbit 0 (by decide)).trans ?_⟩ <;>
    cases v.getLsbD i <;> rfl

/-- The sum of R123 over the bits below `n`. -/
def spacedBits (v : Byte) (n : Nat) : Nat := ((List.range n).map fun i => (v.getLsbD i).toNat <<< (3 * i + 1)).sum

theorem spacedBits_succ (v : Byte) (n : Nat) :
    spacedBits v (n + 1) = spacedBits v n + (v.getLsbD n).toNat <<< (3 * n + 1) := by
  simp [spacedBits, List.range_succ]

theorem spacedBits_lt (v : Byte) (n : Nat) : spacedBits v n < 2 ^ (3 * n + 1) := by
  induction n with
  | zero => simp [spacedBits]
  | succ n ih =>
    have hbit : (v.getLsbD n).toNat * 2 ^ (3 * n + 1) ≤ 1 * 2 ^ (3 * n + 1) :=
      Nat.mul_le_mul_right _ (Bool.toNat_le _)
    have hpow : 2 ^ (3 * (n + 1) + 1) = 2 ^ (3 * n + 1) * 8 := by rw [Nat.mul_succ, Nat.add_right_comm, Nat.pow_add]
    rw [spacedBits_succ, Nat.shiftLeft_eq]
    omega

/-- The summands have no bit in common. -/
theorem spacedBits_succ_eq_or (v : Byte) (n : Nat) :
    spacedBits v (n + 1) = spacedBits v n ||| (v.getLsbD n).toNat <<< (3 * n + 1) := by
  rw [spacedBits_succ, Nat.add_comm, Nat.shiftLeft_add_eq_or_of_lt (spacedBits_lt v n), Nat.or_comm]

/-- The stream of `v` is that of 0 with the bits of `v` put in the middle of their patterns. -/
theorem pulsesBelow_default {c : Config} (h : DefaultPatterns c) (v : Byte) (n : Nat) :
    pulsesBelow c v n = pulsesBelow c 0#8 n ||| spacedBits v n := by
  induction n with
  | zero => simp [spacedBits]
  | succ n ih =>
    obtain ⟨hwidth, -, -⟩ := id h
    simp only [pulsesBelow_succ, spacedBits_succ_eq_or, ih, encodeBit_default h, hwidth, Nat.shiftLeft_or_distrib,
      ← Nat.shiftLeft_add, BitVec.getLsbD_zero, Bool.toNat_false, Nat.zero_shiftLeft, Nat.or_zero, Nat.add_comm 1]
    ac_rfl

theorem pulseStream_default_zero {c : Config} (h : DefaultPatterns c) : pulseStream c 0#8 = 0x924924 := by
  obtain ⟨hwidth, h0, h1⟩ := h
  simp only [pulseStream, encodeBit, hwidth, h0, h1]
  decide

theorem pulseStream_default {c : Config} (h : DefaultPatterns c) (v : Byte) :
    pulseStream c v = 0x924924 ||| ((List.range 8).map fun i => (v.getLsbD i).toNat <<< (3 * i + 1)).sum := by
  rw [← pulseStream_default_zero h]
  exact pulsesBelow_default h v 8

/-- Settles O54: bit by bit of a pattern `1 v[i] 0`, as the stream of 0 with the bits of `v` in it, and the three bytes
of a stream of 24 bits. -/
theorem defaultPatternsClosedForm : Obligations.DefaultPatternsClosedForm := by
  unfold Obligations.DefaultPatternsClosedForm
  intro c v h
  refine ⟨fun i hi => testBit_pulseStream_default h v hi, pulseStream_default h v, ?_⟩
  rw [encodeByte_eq_bytesOfStream, h.1]
  rfl

end Sys2Proof.Machine
end

section
/-! SUPPORT. The frame of the state: it stays as it is while a SHOW is in flight (spec/42_strip_commands.md R145,
spec/20_memory.md R61), and it changes only by a successful set command or a reset (R148). -/

namespace Sys2Proof.Machine

/-! The frame in flight. -/

theorem FrameInFlightIsCurrent.of_idle {s : State} (h : s.inFlight = none) : FrameInFlightIsCurrent s :=
  fun _ hf => nomatch h.symm.trans hf

theorem FrameInFlightIsCurrent.congr {s t : State} (h : FrameInFlightIsCurrent s) (hf : t.inFlight = s.inFlight)
    (hframe : t.frame = s.frame) : FrameInFlightIsCurrent t :=
  fun f ht => (h f (hf.symm.trans ht)).trans hframe.symm

/-- A SHOW that is still waiting was handed the frame of the state, and changed nothing that the frame is computed
from. -/
theorem frameInFlightIsCurrent_issueShow {s t : State} (h : issueShow s = .next t) : FrameInFlightIsCurrent t := by
  rcases issueShow_next h with ⟨-, rfl⟩ | ⟨rest, -, rfl⟩ | ⟨a, rest, -, rfl⟩
  · exact fun f hf => (Option.some.inj hf).symm
  · exact fun f hf => (Option.some.inj hf).symm
  · exact .of_idle rfl

/-- No command but SHOW puts a frame in flight, or takes one away. -/
theorem inFlight_exec {i : Instr} {s t : State} (hi : i ≠ .showFrame) (h : exec i s = .next t) :
    t.inFlight = s.inFlight := by
  rcases exec_next_cases h with ⟨rfl, -⟩ | ⟨-, h⟩
  · exact absurd rfl hi
  rcases h with ⟨-, rfl⟩ | ⟨-, ⟨p, -, rfl⟩ | rfl⟩ | ⟨-, rfl⟩ | ⟨-, ⟨-, rfl⟩ | rfl⟩ |
    ⟨-, ⟨p, -, rfl⟩ | rfl⟩ | ⟨w, -, rfl⟩ <;> rfl

/-- A command that runs with no SHOW in flight leaves none in flight, or its own. -/
theorem frameInFlightIsCurrent_exec {i : Instr} {s t : State} (hf : s.inFlight = none) (h : exec i s = .next t) :
    FrameInFlightIsCurrent t := by
  by_cases hi : i = .showFrame
  · subst hi
    exact frameInFlightIsCurrent_issueShow ((exec_showFrame (wellFormed_of_exec_next h)).symm.trans h)
  · exact .of_idle ((inFlight_exec hi h).trans hf)

/-- Settles O38: a waiting step keeps what the frame is computed from, a SHOW puts the frame of the state in flight, and
every other step leaves none in flight. -/
theorem frameInFlightStaysCurrent : Obligations.FrameInFlightStaysCurrent := by
  unfold Obligations.FrameInFlightStaysCurrent
  intro s t hs h
  obtain ⟨-, h⟩ := step_cases h
  rcases h with ⟨f, -, h⟩ | ⟨-, -, rfl⟩ | ⟨rest, -, -, rfl⟩ | ⟨a, rest, r, hf, -, -, i, c, b, rfl⟩ |
    ⟨v, rest, u, hf, -, hu, rfl⟩
  · rcases h with ⟨-, rfl⟩ | ⟨r, -, rfl⟩ | ⟨a, r, -, rfl⟩
    · exact hs
    · exact hs.congr rfl (frame_congr rfl rfl rfl)
    · exact .of_idle rfl
  · exact hs
  · exact .of_idle rfl
  · exact .of_idle hf
  · exact (frameInFlightIsCurrent_exec (s := { s with inputs := rest }) hf hu).congr (finishWrite_inFlight u)
      (frame_congr (finishWrite_cfg u) (finishWrite_pix u) (finishWrite_bright u))

/-! Which steps change the frame. -/

theorem SameStores.frame_eq {s t : State} (h : SameStores s t) : t.frame = s.frame := by
  obtain ⟨hcfg, hpix, hbright, -⟩ := h
  exact frame_congr hcfg hpix hbright

/-- Settles O43: of what a step can store, RDCOLOR alone is no part of the frame. -/
theorem frameChangesOnlyBySuccessfulSets : Obligations.FrameChangesOnlyBySuccessfulSets := by
  unfold Obligations.FrameChangesOnlyBySuccessfulSets
  intro s t h hne
  rcases step_stores h with ⟨hreset, -⟩ | hsame | ⟨hresult, i, hcommand, hstores⟩
  · exact .inl hreset
  · exact absurd hsame.frame_eq hne
  cases hstores with
  | setPixel p h => exact .inr ⟨.inl hcommand, hresult⟩
  | setAll h => exact .inr ⟨.inr (.inl hcommand), hresult⟩
  | setBrightness hvalid h => exact .inr ⟨.inr (.inr hcommand), hresult⟩
  | getPixel p h =>
    have hrdcolor : (s.setRdcolor (packColor (s.pixel p))).frame = s.frame := frame_congr rfl rfl rfl
    exact absurd (h.frame_eq.trans hrdcolor) hne

end Sys2Proof.Machine
end

section
/-! SUPPORT. What each command does and what it leaves unchanged (spec/42_strip_commands.md R141 to R149). -/

namespace Sys2Proof.Machine

/-! The result code, written by a command after its store. -/

theorem resultWritten_setResult {s t : State} (r : ResultCode) (h : t.status = s.status) :
    ResultWritten s (t.setResult r) r.code :=
  ⟨result_setResult t r, by rw [reserved_setResult, h]⟩

theorem writesOnlyResult_setResult (s : State) (r : ResultCode) : WritesOnlyResult s (s.setResult r) r.code :=
  ⟨resultWritten_setResult r rfl, rfl⟩

theorem resultWritten_completeShow {s t : State} (f : List Byte) (a : Answer) (h : t.status = s.status) :
    ResultWritten s (t.completeShow f a) (answerCode a).code :=
  resultWritten_setResult (answerCode a) h

/-! NOP and ILLEGAL. -/

/-- Settles O6: the result code is NOP's whole effect. -/
theorem nopWritesOkAndNothingElse : Obligations.NopWritesOkAndNothingElse := by
  unfold Obligations.NopWritesOkAndNothingElse
  exact ⟨decodeCommand_encode (i := .nop) rfl, fun s hw => ⟨_, exec_nop hw, writesOnlyResult_setResult s .ok⟩⟩

theorem decodeCommand_eq_illegal_iff {w : Word} :
    decodeCommand w = .illegal w ↔ w.extractLsb' 8 24 ≠ 0#24 ∨ 6 ≤ (w.extractLsb' 0 8).toNat := by
  constructor
  · intro h
    exact wellFormed_illegal_iff.mp (h ▸ wellFormed_decodeCommand w)
  · exact decodeCommand_of_illegal

/-- Settles O12: what a word decodes to is well formed, and the result code is ILLEGAL's whole effect. -/
theorem illegalWritesItsCodeAndNothingElse : Obligations.IllegalWritesItsCodeAndNothingElse := by
  unfold Obligations.IllegalWritesItsCodeAndNothingElse
  intro w
  exact ⟨decodeCommand_eq_illegal_iff, fun s hw => ⟨_, exec_illegal w hw, writesOnlyResult_setResult s .illegalCommand⟩⟩

/-! SET_PIXEL, SET_ALL and GET_PIXEL. -/

/-- The fields of a color, from its word (spec/10_state.md R28). -/
theorem channels_of_eq_unpackColor {c : Color} {v : Word} (h : c = unpackColor v) :
    c.red = v.extractLsb' 0 8 ∧ c.green = v.extractLsb' 8 8 ∧ c.blue = v.extractLsb' 16 8 ∧
      c.white = v.extractLsb' 24 8 := by
  subst h
  exact ⟨rfl, rfl, rfl, rfl⟩

/-- Settles O7: the pixel operand is INDEX exactly where it names a pixel, and that pixel alone is stored. -/
theorem setPixelStoresOrReportsRange : Obligations.SetPixelStoresOrReportsRange := by
  unfold Obligations.SetPixelStoresOrReportsRange
  refine ⟨decodeCommand_encode (i := .setPixel) rfl, fun s hw hlen => ⟨fun p hp hpN => ?_, fun hrange => ?_⟩⟩
  · have hstored : (s.setPixel p s.colorOperand).pixel p = unpackColor s.color :=
      pixel_setPixel_same s.colorOperand (hlen ▸ hpN)
    obtain ⟨hred, hgreen, hblue, hwhite⟩ := channels_of_eq_unpackColor hstored
    exact ⟨_, exec_setPixel_some hw (pixelOperand_eq_some_iff.mpr ⟨hp, hpN⟩), resultWritten_setResult .ok rfl,
      hred, hgreen, hblue, hwhite, fun q hq => pixel_setPixel_other s.colorOperand hq, List.length_set, rfl⟩
  · exact ⟨_, exec_setPixel_none hw (pixelOperand_eq_none_iff.mpr hrange),
      writesOnlyResult_setResult s .indexOutOfRange⟩

/-- Settles O8: SET_ALL has no operand but COLOR, and every pixel is replaced by it. -/
theorem setAllFillsEveryPixel : Obligations.SetAllFillsEveryPixel := by
  unfold Obligations.SetAllFillsEveryPixel
  refine ⟨decodeCommand_encode (i := .setAll) rfl, fun s hw => ?_⟩
  exact ⟨_, exec_setAll hw, resultWritten_setResult .ok rfl, List.length_replicate,
    fun p hp => channels_of_eq_unpackColor (pixel_fillPixels s.colorOperand hp), rfl⟩

/-- Settles O11: RDCOLOR is the packed color of the pixel, whose fields are those of the pixel again. -/
theorem getPixelReadsTheStoredColor : Obligations.GetPixelReadsTheStoredColor := by
  unfold Obligations.GetPixelReadsTheStoredColor
  refine ⟨decodeCommand_encode (i := .getPixel) rfl, fun s hw => ⟨fun p hp hpN => ?_, fun hrange => ?_⟩⟩
  · obtain ⟨hred, hgreen, hblue, hwhite⟩ := channels_of_eq_unpackColor (unpackColor_packColor (s.pixel p)).symm
    exact ⟨_, exec_getPixel_some hw (pixelOperand_eq_some_iff.mpr ⟨hp, hpN⟩), resultWritten_setResult .ok rfl,
      hred.symm, hgreen.symm, hblue.symm, hwhite.symm, rfl⟩
  · exact ⟨_, exec_getPixel_none hw (pixelOperand_eq_none_iff.mpr hrange),
      writesOnlyResult_setResult s .indexOutOfRange⟩

/-! SET_BRIGHTNESS. -/

/-- Settles O9: BRIGHT_IN is stored where it is valid, and nothing is where it is not. -/
theorem setBrightnessStoresOrRejects : Obligations.SetBrightnessStoresOrRejects := by
  unfold Obligations.SetBrightnessStoresOrRejects
  refine ⟨decodeCommand_encode (i := .setBrightness) rfl, fun s hw => ⟨fun hvalid => ?_, fun hinvalid => ?_⟩⟩
  · exact ⟨_, exec_setBrightness_valid hw hvalid, resultWritten_setResult .ok rfl, rfl, rfl⟩
  · exact ⟨_, exec_setBrightness_invalid hw hinvalid, writesOnlyResult_setResult s .invalidBrightness⟩

/-- A SET_BRIGHTNESS completes, valid or not, and BRIGHT is all of the frame that it can change. -/
theorem exec_setBrightness_keeps_pix {s : State} (hw : s.cfg.wellFormed = true) :
    ∃ t, exec .setBrightness s = .next t ∧ t.cfg = s.cfg ∧ t.pix = s.pix := by
  cases hb : brightValid s.brightIn with
  | true => exact ⟨_, exec_setBrightness_valid hw hb, rfl, rfl⟩
  | false => exact ⟨_, exec_setBrightness_invalid hw hb, rfl, rfl⟩

theorem setBrightnessEach_cons {b : Bits64} {bs : List Bits64} {s t : State}
    (h : exec .setBrightness { s with brightIn := b } = .next t) :
    setBrightnessEach (b :: bs) s = setBrightnessEach bs t := by
  rw [setBrightnessEach, h]

theorem setBrightnessEach_keeps_pix (bs : List Bits64) {s : State} (hw : s.cfg.wellFormed = true) :
    ∃ t, setBrightnessEach bs s = .next t ∧ t.cfg = s.cfg ∧ t.pix = s.pix := by
  induction bs generalizing s with
  | nil => exact ⟨s, rfl, rfl, rfl⟩
  | cons b bs ih =>
    obtain ⟨u, hu, hucfg, hupix⟩ := exec_setBrightness_keeps_pix (s := { s with brightIn := b }) hw
    obtain ⟨t, ht, htcfg, htpix⟩ := ih (s := u) (hucfg ▸ hw)
    exact ⟨t, (setBrightnessEach_cons hu).trans ht, htcfg.trans hucfg, htpix.trans hupix⟩

/-- Settles O19: with the configuration and PIX kept, the earlier BRIGHT is all that the earlier frame lacks. -/
theorem brightnessIsReversible : Obligations.BrightnessIsReversible := by
  unfold Obligations.BrightnessIsReversible
  intro bs s hw hvalid
  obtain ⟨t, ht, hcfg, hpix⟩ := setBrightnessEach_keeps_pix bs hw
  exact ⟨t, _, ht, hpix, exec_setBrightness_valid (s := { t with brightIn := s.bright }) (hcfg ▸ hw) hvalid, rfl,
    frame_congr hcfg hpix rfl⟩

/-! SHOW. -/

/-- A SHOW that is answered at once: its code, one transaction of the frame, and the answer consumed. -/
theorem exec_showFrame_of_answer {s : State} {a : Answer} {rest : List WaitEvent} (hw : s.cfg.wellFormed = true)
    (hf : s.inFlight = none) (hwaits : s.waits = .answer a :: rest) :
    ∃ t, exec .showFrame s = .next t ∧ ResultWritten s t (answerCode a).code ∧ t.sent = s.sent ++ [⟨s.frame, a⟩] ∧
      t = { s with status := t.status, waits := rest, sent := t.sent } := by
  refine ⟨_, (exec_showFrame hw).trans (issueShow_of_answer hwaits), resultWritten_completeShow _ a rfl, rfl, ?_⟩
  rw [hf]
  rfl

/-- Settles O10: one lemma for both answers, and the frame in flight where there is none. -/
theorem showMakesOneTransaction : Obligations.ShowMakesOneTransaction := by
  unfold Obligations.ShowMakesOneTransaction
  refine ⟨decodeCommand_encode (i := .showFrame) rfl, fun s frame hw hf hframe => ?_⟩
  obtain rfl : frame = s.frame := hframe
  exact ⟨fun rest => exec_showFrame_of_answer hw hf, fun rest => exec_showFrame_of_answer hw hf,
    fun rest hwaits => (exec_showFrame hw).trans (issueShow_of_pending hwaits),
    fun hwaits => (exec_showFrame hw).trans (issueShow_of_silent hwaits)⟩

end Sys2Proof.Machine
end

section
/-! SUPPORT. The Frame Builder: the frame as reset runs around blocks of `W` bytes, one block for each channel of the
strip (spec/43_frame_builder.md R180 to R185), and its bits on the wire (R181). -/

namespace Sys2Proof.Machine

/-! A list made of blocks of one length `w`: the strip's channels by pixel, its bytes by channel, its bits by byte. -/

section Blocks

variable {α β : Type} {f : α → List β} {w : Nat}

theorem length_flatMap_of_length (h : ∀ a, (f a).length = w) (l : List α) : (l.flatMap f).length = l.length * w := by
  simp [List.length_flatMap, h, List.map_const']

/-- Block `i` is what entry `i` gives. -/
theorem take_drop_flatMap (h : ∀ a, (f a).length = w) {l : List α} {i : Nat} {a : α} (hi : l[i]? = some a) :
    ((l.flatMap f).drop (i * w)).take w = f a := by
  induction l generalizing i with
  | nil => simp at hi
  | cons b l ih =>
    cases i with
    | zero =>
      obtain rfl : b = a := by simpa using hi
      simp [← h b]
    | succ i =>
      have hskip : (i + 1) * w = (f b).length + i * w := by rw [h, Nat.succ_mul, Nat.add_comm]
      rw [List.flatMap_cons, hskip, ← List.drop_drop, List.drop_left]
      exact ih (List.getElem?_cons_succ ▸ hi)

/-- Entry `j` of block `i`. -/
theorem getElem?_flatMap_block (h : ∀ a, (f a).length = w) {l : List α} {i j : Nat} {a : α} (hi : l[i]? = some a)
    (hj : j < w) : (l.flatMap f)[i * w + j]? = (f a)[j]? := by
  rw [← take_drop_flatMap h hi, List.getElem?_take_of_lt hj, List.getElem?_drop]

end Blocks

/-! The channels that a SHOW encodes (R182). -/

/-- The scaled wire-order channels of the strip, pixel after pixel: channel `ch` of pixel `p` is entry `p * C + ch`. -/
def State.wireChannels (s : State) : List Byte :=
  (List.range s.cfg.ledCount).flatMap fun p => renderPixelChannels s.cfg (s.pixel p) s.bright

@[simp] theorem length_renderPixelChannels (cfg : Config) (c : Color) (b : Bits64) :
    (renderPixelChannels cfg c b).length = cfg.channels := by
  cases h : cfg.hasWhite <;> simp [renderPixelChannels, Config.channels, h]

@[simp] theorem length_wireChannels (s : State) : s.wireChannels.length = s.cfg.ledCount * s.cfg.channels := by
  rw [State.wireChannels, length_flatMap_of_length fun _ => length_renderPixelChannels _ _ _, List.length_range]

theorem getElem?_wireChannels {s : State} {p ch : Nat} (hp : p < s.cfg.ledCount) (hch : ch < s.cfg.channels) :
    s.wireChannels[p * s.cfg.channels + ch]? = (renderPixelChannels s.cfg (s.pixel p) s.bright)[ch]? :=
  getElem?_flatMap_block (fun _ => length_renderPixelChannels _ _ _) (List.getElem?_range hp) hch

/-- Each pixel has its `C` channels, and they stand at its place among the strip's (R111). -/
theorem exists_channel {s : State} {p ch : Nat} (hp : p < s.cfg.ledCount) (hch : ch < s.cfg.channels) :
    ∃ x, (wireOrderChannels (scaled s.cfg.scale (s.pixel p) s.bright) s.cfg.hasWhite)[ch]? = some x ∧
      s.wireChannels[p * s.cfg.channels + ch]? = some x := by
  have hlt : ch < (renderPixelChannels s.cfg (s.pixel p) s.bright).length := by simpa using hch
  exact ⟨_, List.getElem?_eq_getElem hlt, (getElem?_wireChannels hp hch).trans (List.getElem?_eq_getElem hlt)⟩

/-! The frame: its pixel data are the encoded channels, between the two reset runs (R180, R183). -/

theorem encodeChannels_eq_flatMap (cfg : Config) (cs : List Byte) : encodeChannels cfg cs = cs.flatMap (encodeByte cfg) :=
  rfl

@[simp] theorem length_encodeChannels (cfg : Config) (cs : List Byte) :
    (encodeChannels cfg cs).length = cs.length * cfg.width :=
  length_flatMap_of_length (length_encodeByte cfg) cs

/-- Pixel boundaries leave no mark in the pixel data. -/
theorem flatten_render (s : State) :
    (render s.cfg s.pixel s.bright).flatten = encodeChannels s.cfg s.wireChannels := by
  rw [render, ← List.flatMap_def, State.wireChannels, encodeChannels_eq_flatMap, List.flatMap_assoc]
  rfl

theorem frame_eq (s : State) :
    s.frame = List.replicate s.cfg.resetBytes 0x00#8 ++
      (encodeChannels s.cfg s.wireChannels ++ List.replicate s.cfg.resetBytes 0x00#8) := by
  rw [State.frame, buildFrame, flatten_render, List.append_assoc]

theorem length_frame (s : State) :
    s.frame.length = 2 * s.cfg.resetBytes + s.cfg.ledCount * s.cfg.channels * s.cfg.width := by
  simp only [frame_eq, List.length_append, List.length_replicate, length_encodeChannels, length_wireChannels]
  omega

theorem take_resetBytes_frame (s : State) :
    s.frame.take s.cfg.resetBytes = List.replicate s.cfg.resetBytes 0x00#8 := by
  rw [frame_eq]
  exact List.take_left' List.length_replicate

theorem drop_frame (s : State) :
    s.frame.drop (s.cfg.resetBytes + s.cfg.ledCount * s.cfg.channels * s.cfg.width) =
      List.replicate s.cfg.resetBytes 0x00#8 := by
  rw [frame_eq, ← List.append_assoc]
  exact List.drop_left' (by simp)

/-- The `W` bytes of a channel. -/
theorem take_drop_frame {s : State} {i : Nat} {x : Byte} (hx : s.wireChannels[i]? = some x) :
    (s.frame.drop (s.cfg.resetBytes + i * s.cfg.width)).take s.cfg.width = encodeByte s.cfg x := by
  have hblock : ((encodeChannels s.cfg s.wireChannels).drop (i * s.cfg.width)).take s.cfg.width = encodeByte s.cfg x :=
    take_drop_flatMap (length_encodeByte s.cfg) hx
  have hfits : s.cfg.width ≤ ((encodeChannels s.cfg s.wireChannels).drop (i * s.cfg.width)).length := by
    simpa using congrArg List.length hblock
  calc
    _ = ((encodeChannels s.cfg s.wireChannels ++ List.replicate s.cfg.resetBytes 0x00#8).drop
          (i * s.cfg.width)).take s.cfg.width := by
      rw [frame_eq, ← List.drop_drop, List.drop_left' List.length_replicate]
    _ = _ := by rw [List.drop_append, List.take_append_of_le_length hfits, hblock]

/-- Byte `j` of channel `i`. -/
theorem getElem?_frame {s : State} {i j : Nat} {x : Byte} (hx : s.wireChannels[i]? = some x) (hj : j < s.cfg.width) :
    s.frame[s.cfg.resetBytes + (i * s.cfg.width + j)]? = (encodeByte s.cfg x)[j]? := by
  rw [← take_drop_frame hx, List.getElem?_take_of_lt hj, List.getElem?_drop, Nat.add_assoc]

/-- Settles O55: byte `t` of the pixel data is byte `t mod W` of channel `t div W`, which is a channel of pixel
`t div (C * W)`. -/
theorem frameLayout : Obligations.FrameLayout := by
  unfold Obligations.FrameLayout
  intro s hw
  refine ⟨length_frame s, fun k hk => ?_, ?_, fun k hge hlt => ?_⟩
  · rw [← List.getElem?_take_of_lt hk, take_resetBytes_frame, List.getElem?_replicate_of_lt hk]
  · rintro _ t rfl ht
    have hchannel : t / s.cfg.width < s.cfg.ledCount * s.cfg.channels := Nat.div_lt_of_lt_mul (by rwa [Nat.mul_comm])
    have hchannels : 0 < s.cfg.channels := Nat.pos_of_lt_mul_left hchannel
    have hpixel : t / s.cfg.width / s.cfg.channels < s.cfg.ledCount :=
      Nat.div_lt_of_lt_mul (by rwa [Nat.mul_comm])
    obtain ⟨x, hx, hxi⟩ := exists_channel hpixel (Nat.mod_lt (t / s.cfg.width) hchannels)
    rw [Nat.div_add_mod'] at hxi
    rw [Nat.mul_comm s.cfg.channels, ← Nat.div_div_eq_div_mul, Nat.mod_mul_right_div_self]
    refine ⟨x, hx, ?_⟩
    rw [← getElem?_frame hxi (Nat.mod_lt t (width_pos hw)), Nat.div_add_mod']
  · obtain ⟨j, rfl⟩ := Nat.exists_eq_add_of_le hge
    rw [← List.getElem?_drop, drop_frame, List.getElem?_replicate_of_lt (by omega)]

/-- Settles O56: the bytes of a channel are its encoding, which decodes to it. -/
theorem frameDecodesToTheScaledChannels : Obligations.FrameDecodesToTheScaledChannels := by
  unfold Obligations.FrameDecodesToTheScaledChannels
  intro s p ch hw hp hch
  obtain ⟨x, hx, hxi⟩ := exists_channel hp hch
  exact ⟨x, hx, by rw [take_drop_frame hxi, decodeByte_encodeByte hw]⟩

/-! The bits on the wire (R181). -/

theorem wireBits_replicate_zero (r : Nat) : wireBits (List.replicate r 0x00#8) = List.replicate (8 * r) false := by
  induction r with
  | zero => rfl
  | succ r ih =>
    have hbyte : (List.range 8).map (fun i => (0x00#8).getMsbD i) = List.replicate 8 false := by decide
    rw [List.replicate_succ, wireBits, List.flatMap_cons, hbyte, ← wireBits, ih, List.replicate_append_replicate,
      Nat.mul_succ, Nat.add_comm]

theorem length_wireBits (bs : List Byte) : (wireBits bs).length = bs.length * 8 :=
  length_flatMap_of_length (by simp) bs

theorem wireBits_encodeChannels (cfg : Config) (cs : List Byte) :
    wireBits (encodeChannels cfg cs) = cs.flatMap fun v => wireBits (encodeByte cfg v) := List.flatMap_assoc

/-- With the default patterns, the first bit of each pattern of a byte is 1. -/
theorem getElem?_wireBits_encodeByte_default {c : Config} (h : DefaultPatterns c) (v : Byte) {i : Nat} (hi : i < 8) :
    (wireBits (encodeByte c v))[3 * i]? = some true := by
  have hpos : 8 * 3 - 1 - 3 * i = 3 * (7 - i) + 2 := by omega
  rw [encodeByte_eq_bytesOfStream, wireBits_bytesOfStream, bitsFromTop, h.1, List.getElem?_map,
    List.getElem?_range (by omega), Option.map_some, hpos, (testBit_pulseStream_default h v (by omega)).1]

/-- The bytes take 24 bits each, so that every third bit of encoded channels begins a pattern. -/
theorem getElem?_wireBits_encodeChannels_default {c : Config} (h : DefaultPatterns c) {cs : List Byte} {i : Nat}
    (hi : 3 * i < (wireBits (encodeChannels c cs)).length) : (wireBits (encodeChannels c cs))[3 * i]? = some true := by
  have hlen : ∀ v, (wireBits (encodeByte c v)).length = 24 := fun v => by simp [length_wireBits, h.1]
  rw [length_wireBits, length_encodeChannels, h.1] at hi
  have hbyte : i / 8 < cs.length := by omega
  have hpos : 3 * i = i / 8 * 24 + 3 * (i % 8) := by omega
  rw [wireBits_encodeChannels, hpos, getElem?_flatMap_block hlen (List.getElem?_eq_getElem hbyte) (by omega),
    getElem?_wireBits_encodeByte_default h _ (by omega)]

/-- Settles O57: the runs are zero bytes, and of three consecutive bits one begins a pattern. -/
theorem resetRunsAreLowAndPixelDataIsNot : Obligations.ResetRunsAreLowAndPixelDataIsNot := by
  unfold Obligations.ResetRunsAreLowAndPixelDataIsNot
  intro s
  refine ⟨?_, ?_, fun h k hk => ?_⟩
  · rw [take_resetBytes_frame, wireBits_replicate_zero]
  · have hlast : s.frame.length - s.cfg.resetBytes =
        s.cfg.resetBytes + s.cfg.ledCount * s.cfg.channels * s.cfg.width := by
      rw [length_frame]
      omega
    rw [hlast, drop_frame, wireBits_replicate_zero]
  · have hfirst : k + 2 * k % 3 = 3 * ((k + 2) / 3) := by omega
    rw [flatten_render] at hk ⊢
    refine ⟨2 * k % 3, Nat.mod_lt _ three_pos, ?_⟩
    rw [hfirst]
    exact getElem?_wireBits_encodeChannels_default h (by omega)

end Sys2Proof.Machine
end

section
/-! SUPPORT. The result codes as exceptions: which command reports which code, and what a command that reports an error
leaves unchanged (spec/60_exceptions.md R200 to R216). -/

namespace Sys2Proof.Machine

/-! INDEX_OUT_OF_RANGE and the idle block. -/

/-- SET_PIXEL and GET_PIXEL complete, and report INDEX_OUT_OF_RANGE exactly where INDEX names no pixel. -/
theorem exec_pixelCommand_result_iff {i : Instr} {s : State} (hw : s.cfg.wellFormed = true)
    (hi : i = .setPixel ∨ i = .getPixel) : ∃ t, exec i s = .next t ∧ (t.result = 1#4 ↔ s.pixelOperand = none) := by
  cases hp : s.pixelOperand with
  | none =>
    rcases hi with rfl | rfl
    · exact ⟨_, exec_setPixel_none hw hp, by simp [ResultCode.code]⟩
    · exact ⟨_, exec_getPixel_none hw hp, by simp [ResultCode.code]⟩
  | some p =>
    rcases hi with rfl | rfl
    · exact ⟨_, exec_setPixel_some hw hp, by simp [ResultCode.code]⟩
    · exact ⟨_, exec_getPixel_some hw hp, by simp [ResultCode.code]⟩

/-- Settles O13: INDEX names no pixel exactly where it is outside the strip. -/
theorem rangeErrorExactlyOutsideTheStrip : Obligations.RangeErrorExactlyOutsideTheStrip := by
  unfold Obligations.RangeErrorExactlyOutsideTheStrip
  intro s i hw hi
  obtain ⟨t, ht, hresult⟩ := exec_pixelCommand_result_iff hw hi
  exact ⟨t, ht, hresult.trans pixelOperand_eq_none_iff⟩

/-- Settles O35: with no SHOW in flight and no input, a step is the idle one. -/
theorem idleBlockKeepsItsState : Obligations.IdleBlockKeepsItsState := by
  unfold Obligations.IdleBlockKeepsItsState
  intro s hw hf hi
  rw [step, configured_of_wellFormed hw, advance, hf, hi]

/-! Every result code, by the commands that raise it. -/

/-- How a command reports where it is complete, a case for each result code of spec/60_exceptions.md R200. An error other
than TRANSPORT_ERROR is all that the command writes; TRANSPORT_ERROR ends the SHOW with the Transport's answer ERR. -/
inductive Reports (s t : State) : Instr → Prop where
  | ok {i : Instr} (hi : ∀ w, i ≠ .illegal w) (h : t.result = 0#4) : Reports s t i
  | indexOutOfRange {i : Instr} (hi : i = .setPixel ∨ i = .getPixel) (h : WritesOnlyResult s t 1#4) : Reports s t i
  | invalidBrightness (h : WritesOnlyResult s t 2#4) : Reports s t .setBrightness
  | transportError (rest : List WaitEvent) (hwaits : s.waits = .answer .err :: rest)
      (h : t = State.completeShow { s with waits := rest } s.frame .err) : Reports s t .showFrame
  | illegalCommand (w : Word) (h : WritesOnlyResult s t 4#4) : Reports s t (.illegal w)

theorem WritesOnlyResult.result_eq {s t : State} {code : BitVec 4} (h : WritesOnlyResult s t code) :
    t.result = code := by
  obtain ⟨⟨hresult, -⟩, -⟩ := h
  exact hresult

/-- A SHOW that is complete has been answered: OK, or ERR. -/
theorem reports_issueShow {s t : State} (h : issueShow s = .next t) (ht : t.inFlight = none) :
    Reports s t .showFrame := by
  rcases issueShow_next h with ⟨-, rfl⟩ | ⟨rest, -, rfl⟩ | ⟨a, rest, hwaits, rfl⟩
  · exact nomatch ht
  · exact nomatch ht
  · cases a with
    | ok => exact .ok nofun (result_completeShow _ _ _)
    | err => exact .transportError rest hwaits rfl

/-- Every command that is complete reports a code of its own. -/
theorem exec_reports {i : Instr} {s t : State} (hexec : exec i s = .next t) (ht : t.inFlight = none) :
    Reports s t i := by
  rcases exec_next_cases hexec with ⟨rfl, hshow⟩ | ⟨-, h⟩
  · exact reports_issueShow hshow ht
  rcases h with ⟨rfl, rfl⟩ | ⟨rfl, ⟨p, -, rfl⟩ | rfl⟩ | ⟨rfl, rfl⟩ | ⟨rfl, ⟨-, rfl⟩ | rfl⟩ |
    ⟨rfl, ⟨p, -, rfl⟩ | rfl⟩ | ⟨w, rfl, rfl⟩
  · exact .ok nofun (result_setResult _ _)
  · exact .ok nofun (result_setResult _ _)
  · exact .indexOutOfRange (.inl rfl) (writesOnlyResult_setResult s _)
  · exact .ok nofun (result_setResult _ _)
  · exact .ok nofun (result_setResult _ _)
  · exact .invalidBrightness (writesOnlyResult_setResult s _)
  · exact .ok nofun (result_setResult _ _)
  · exact .indexOutOfRange (.inr rfl) (writesOnlyResult_setResult s _)
  · exact .illegalCommand w (writesOnlyResult_setResult s _)

/-- Settles O14: code by code, the commands that report it. -/
theorem eachCommandHasItsOwnResultCodes : Obligations.EachCommandHasItsOwnResultCodes := by
  unfold Obligations.EachCommandHasItsOwnResultCodes
  intro i s t hexec ht
  cases exec_reports hexec ht with
  | ok hi hresult =>
    cases i with
    | nop | setAll => exact hresult
    | setPixel | setBrightness | showFrame | getPixel => exact .inl hresult
    | illegal w => exact absurd rfl (hi w)
  | indexOutOfRange hi h => rcases hi with rfl | rfl <;> exact .inr h.result_eq
  | invalidBrightness h => exact .inr h.result_eq
  | transportError rest hwaits h =>
    subst h
    exact .inr (result_completeShow _ _ _)
  | illegalCommand w h => exact h.result_eq

/-- A command that reports an error has written RESULT alone, or is a SHOW that the Transport answered with ERR. -/
theorem Reports.of_error {i : Instr} {s t : State} (h : Reports s t i) (hne : t.result ≠ 0#4) :
    (∃ code, code ≠ 3#4 ∧ WritesOnlyResult s t code) ∨
    (i = .showFrame ∧ ∃ rest, s.waits = .answer .err :: rest ∧
      t = State.completeShow { s with waits := rest } s.frame .err) := by
  cases h with
  | ok _ hresult => exact absurd hresult hne
  | indexOutOfRange _ h => exact .inl ⟨_, by decide, h⟩
  | invalidBrightness h => exact .inl ⟨_, by decide, h⟩
  | transportError rest hwaits h => exact .inr ⟨rfl, rest, hwaits, h⟩
  | illegalCommand _ h => exact .inl ⟨_, by decide, h⟩

/-- Settles O15: TRANSPORT_ERROR tells the failed SHOW from the errors that write RESULT alone. -/
theorem errorsArePrecise : Obligations.ErrorsArePrecise := by
  unfold Obligations.ErrorsArePrecise
  intro i s t h hf ht hne
  rcases (exec_reports h ht).of_error hne with ⟨code, hcode, ⟨hresult, hreserved⟩, hframe⟩ | ⟨rfl, rest, hwaits, rfl⟩
  · exact ⟨fun _ => ⟨hreserved, hframe⟩, fun hthree => absurd (hresult.symm.trans hthree) hcode⟩
  · refine ⟨fun hother => absurd (result_completeShow _ _ _) hother,
      fun _ => ⟨rfl, hwaits, rfl, reserved_completeShow _ _ _, ?_⟩⟩
    rw [hf]
    rfl

end Sys2Proof.Machine
end

section
/-! SUPPORT. Reset and hazards: the operand registers that no command writes (spec/70_reset_and_hazards.md R235), the
reset runs between consecutive frames (R238), and reset, idle or during a SHOW (R230, R231). -/

namespace Sys2Proof.Machine

/-! The operand registers. -/

/-- Settles O41: a SHOW changes none, answered or not, and every other command stores elsewhere. -/
theorem commandsKeepTheOperandRegisters : Obligations.CommandsKeepTheOperandRegisters := by
  unfold Obligations.CommandsKeepTheOperandRegisters
  intro i s t h
  rcases exec_next_cases h with ⟨-, h⟩ | ⟨-, h⟩
  · rcases issueShow_next h with ⟨-, rfl⟩ | ⟨rest, -, rfl⟩ | ⟨a, rest, -, rfl⟩ <;> exact ⟨rfl, rfl, rfl⟩
  · rcases h with ⟨-, rfl⟩ | ⟨-, ⟨p, -, rfl⟩ | rfl⟩ | ⟨-, rfl⟩ | ⟨-, ⟨-, rfl⟩ | rfl⟩ |
      ⟨-, ⟨p, -, rfl⟩ | rfl⟩ | ⟨w, -, rfl⟩ <;> exact ⟨rfl, rfl, rfl⟩

/-! The reset runs on the wire. -/

theorem wireBits_append (as bs : List Byte) : wireBits (as ++ bs) = wireBits as ++ wireBits bs := List.flatMap_append

/-- A frame that the Transport answered with OK is on the wire whole, and its reset runs are low. -/
theorem wireOf_ok_buildFrame (n : Nat) (encoded : List (List Byte)) (r : Nat) :
    wireOf n ⟨buildFrame encoded r, .ok⟩ =
      List.replicate (8 * r) false ++ wireBits encoded.flatten ++ List.replicate (8 * r) false := by
  rw [wireOf, buildFrame, wireBits_append, wireBits_append, wireBits_replicate_zero]

/-- Settles O58: the trailing reset run of the first frame and the leading one of the second make one run. -/
theorem twoResetRunsBetweenFrames : Obligations.TwoResetRunsBetweenFrames := by
  unfold Obligations.TwoResetRunsBetweenFrames
  intro n m x y r
  have hruns : List.replicate (8 * (2 * r)) false =
      List.replicate (8 * r) false ++ List.replicate (8 * r) false := by
    rw [List.replicate_append_replicate]
    congr 1
    omega
  rw [wireOf_ok_buildFrame, wireOf_ok_buildFrame, hruns]
  simp only [List.append_assoc]

/-! Reset. -/

theorem awaitAnswer_of_reset {s : State} {frame : List Byte} {rest : List WaitEvent} (hf : s.inFlight = some frame)
    (hwaits : s.waits = .reset :: rest) : awaitAnswer s = .refused .resetDuringShow := by
  rw [awaitAnswer, hf, hwaits]

/-- Settles O22: the SHOW command and a waiting step both wait for the answer. -/
theorem resetDuringShowIsRefused : Obligations.ResetDuringShowIsRefused := by
  unfold Obligations.ResetDuringShowIsRefused
  intro s rest hw hwaits
  refine ⟨?_, fun hf => ?_⟩
  · rw [exec_showFrame hw, issueShow]
    exact awaitAnswer_of_reset rfl hwaits
  · obtain ⟨frame, hframe⟩ := Option.ne_none_iff_exists'.mp hf
    rw [step_inFlight hw hframe, awaitAnswer_of_reset hframe hwaits, mapNext]

theorem step_reset {s : State} {rest : List Input} (hw : s.cfg.wellFormed = true) (hf : s.inFlight = none)
    (hi : s.inputs = .reset :: rest) : step s = .next (State.resetBlock { s with inputs := rest }) := by
  rw [step, configured_of_wellFormed hw, advance, hf, hi]

/-- Settles O32: a reset gives the power-on values, whose black is four zero channels, and keeps the rest. -/
theorem resetSetsEveryPieceOfState : Obligations.ResetSetsEveryPieceOfState := by
  unfold Obligations.ResetSetsEveryPieceOfState
  refine ⟨fun s rest hw hf hi => ⟨_, step_reset hw hf hi, ?_⟩, fun c => ?_⟩
  · simp [Color.black]
  · simp [Color.black]

end Sys2Proof.Machine
end

section
/-! SUPPORT. The configuration never changes while the block runs (spec/00_scope.md section 3). -/

namespace Sys2Proof.Machine

/-- A command that succeeds stores to PIX, BRIGHT or RDCOLOR alone, never to the configuration. -/
theorem Stores.cfg_eq {s t : State} {i : Instr} (h : Stores s t i) : t.cfg = s.cfg := by
  cases h with
  | setPixel p h => exact h.left
  | setAll h => exact h.left
  | setBrightness hvalid h => exact h.left
  | getPixel p h => exact h.left

/-- Settles O34: a reset keeps the configuration, and so does each store that `step_stores` leaves to a step. -/
theorem configurationNeverChanges : Obligations.ConfigurationNeverChanges := by
  unfold Obligations.ConfigurationNeverChanges
  intro s t h
  rcases step_stores h with ⟨-, hreset, -⟩ | ⟨hsame, -⟩ | ⟨-, i, -, hstores⟩
  · rw [hreset, State.resetBlock_cfg]
  · exact hsame
  · exact hstores.cfg_eq

end Sys2Proof.Machine
end
